-- ==== Sys2Proof/Word.lean ====
section
/-! DEFINITION. The word types of the block (R8): a byte, a 16-bit field, a 64-bit word. -/

namespace Sys2Proof

/-- One byte of the State Register, the host buffer or a setter operand. -/
abbrev Byte := BitVec 8

/-- A `CNT16` or `REP16` field (R56, R57). -/
abbrev Word16 := BitVec 16

/-- A command word, `RESULT` or `DATA_IN` (R27, R29, R53). -/
abbrev Word64 := BitVec 64

end Sys2Proof
end

