-- ==== Sys2Proof/Assembly.lean ====
section
/-! DEFINITION. Assembler statements as abstract syntax (R64, R65): what a source line says before its operands are
range-checked. The operands are plain numbers here; WellFormed.lean checks them. -/

namespace Sys2Proof

/-- Symbolic power values (R64, R14). -/
inductive PowerName where
  | off | on
deriving DecidableEq, Repr

/-- Symbolic mode codes (R64, R14). -/
inductive ModeName where
  | auto | cool | dry | fan | heat
deriving DecidableEq, Repr

/-- Symbolic fan codes (R64, R14). -/
inductive FanName where
  | auto | low | med | high
deriving DecidableEq, Repr

/-- Symbolic vane codes (R64, R14). -/
inductive VaneName where
  | auto | swing | up | midup | middle | middown | down
deriving DecidableEq, Repr

/-- An operand of a setter: a number, or a symbolic value (R64). -/
inductive Operand (α : Type) where
  | num (n : Nat)
  | name (a : α)
deriving DecidableEq, Repr

/-- One assembler statement: the sixteen commands (R64) and the five pseudo-instructions (R65). -/
inductive Stmt where
  | reset
  | setpwr (v : Operand PowerName)
  | getpwr
  | setmode (v : Operand ModeName)
  | getmode
  | setfan (v : Operand FanName)
  | getfan
  | settemp (v : Nat)
  | gettemp
  | setvane (v : Operand VaneName)
  | getvane
  | cksum
  | rawrd
  | send (r : Nat)
  | sendbuf (n r : Nat)
  | sendpkd (n r : Nat)
  /-- `POWERON`. -/
  | poweron
  /-- `POWEROFF`. -/
  | poweroff
  /-- `SEND` with no operand. -/
  | sendOnce
  /-- `SENDSTATE r`. -/
  | sendstate (r : Nat)
  /-- `SENDPKD64 r`. -/
  | sendpkd64 (r : Nat)
deriving DecidableEq, Repr

end Sys2Proof
end

