-- ==== Sys2Proof/Syntax.lean ====
section
/-! DEFINITION. The commands: one constructor per row of spec/opcode_table.json (R60), with the fields R59 gives it. -/

namespace Sys2Proof

/-- A command (R60). `imm` is `IMM8` (R55), `cnt` is `CNT16` (R56), `rep` is `REP16` (R57). The widths of the operands are
their types, so every term is an instruction some command word encodes. -/
inductive Instr where
  /-- RESET, R68. -/
  | reset
  /-- SETPWR, R69. -/
  | setpwr (imm : Byte)
  /-- GETPWR, R70. -/
  | getpwr
  /-- SETMODE, R71. -/
  | setmode (imm : Byte)
  /-- GETMODE, R72. -/
  | getmode
  /-- SETFAN, R73. -/
  | setfan (imm : Byte)
  /-- GETFAN, R74. -/
  | getfan
  /-- SETTEMP, R75. -/
  | settemp (imm : Byte)
  /-- GETTEMP, R76. -/
  | gettemp
  /-- SETVANE, R77. -/
  | setvane (imm : Byte)
  /-- GETVANE, R78. -/
  | getvane
  /-- CKSUM, R79. -/
  | cksum
  /-- RAWRD, R83. -/
  | rawrd
  /-- SEND, R86. -/
  | send (rep : Word16)
  /-- SENDBUF, R87. -/
  | sendbuf (cnt rep : Word16)
  /-- SENDPKD, R88. -/
  | sendpkd (cnt rep : Word16)
deriving DecidableEq, Repr

end Sys2Proof
end

