-- ==== Sys2Proof/WellFormed.lean ====
section
/-! DEFINITION. Well-formedness. Every term of `Instr` is well-formed, because its operands carry their widths; what can be
ill-formed is a command word (R61) and an assembler statement (R64: "an operand out of its range is an assembler
error"). -/

namespace Sys2Proof

/-- `RSV0 = w[59:56]` (R53). -/
def rsv0 (w : Word64) : BitVec 4 := w.extractLsb' 56 4

/-- `RSV1 = w[15:0]` (R53). -/
def rsv1 (w : Word64) : Word16 := w.extractLsb' 0 16

/-- A command word that is not reserved (R61). -/
abbrev wellFormedWord (w : Word64) : Prop := rsv0 w = 0#4 ∧ rsv1 w = 0#16

/-- `IMM8` range (R64). -/
abbrev fitsImm8 (n : Nat) : Prop := n ≤ 255

/-- `CNT16` and `REP16` range (R64). -/
abbrev fits16 (n : Nat) : Prop := n ≤ 65535

/-- A numeric setter operand is in range; a symbolic value always is. -/
def Operand.wf {α : Type} : Operand α → Bool
  | .num n => fitsImm8 n
  | .name _ => true

/-- Every operand of the statement is in its range (R64). -/
def Stmt.wf : Stmt → Bool
  | .setpwr v => v.wf
  | .setmode v => v.wf
  | .setfan v => v.wf
  | .settemp v => fitsImm8 v
  | .setvane v => v.wf
  | .send r => fits16 r
  | .sendbuf n r => fits16 n && fits16 r
  | .sendpkd n r => fits16 n && fits16 r
  | .sendstate r => fits16 r
  | .sendpkd64 r => fits16 r
  | .reset => true
  | .getpwr => true
  | .getmode => true
  | .getfan => true
  | .gettemp => true
  | .getvane => true
  | .cksum => true
  | .rawrd => true
  | .poweron => true
  | .poweroff => true
  | .sendOnce => true

end Sys2Proof
end

