-- ==== Sys2Proof/Decode.lean ====
section
/-! DEFINITION. Decoding of a 64-bit command word (R53, R60, R66), total; then the encoder, from the same tables; then, for
every constructor, one word written out from the spec that decodes to it. -/

namespace Sys2Proof

/-- Why a word is no command. -/
inductive Reject where
  /-- `RSV0 ≠ 0`: IGNORED (R61). -/
  | rsv0NonZero
  /-- `RSV0 = 0` and `RSV1 ≠ 0`: IGNORED (R61). -/
  | rsv1NonZero
  /-- No opcode of R60. All 16 values of the 4-bit field are assigned (R54), so no word is rejected for this. -/
  | opcodeUnassigned
deriving DecidableEq, Repr

/-- `OPC = w[63:60]` (R53, R54). -/
def opc (w : Word64) : BitVec 4 := w.extractLsb' 60 4

/-- `IMM8 = w[55:48]` (R55). -/
def imm8 (w : Word64) : Byte := w.extractLsb' 48 8

/-- `CNT16 = w[47:32]` (R56). -/
def cnt16 (w : Word64) : Word16 := w.extractLsb' 32 16

/-- `REP16 = w[31:16]` (R57). -/
def rep16 (w : Word64) : Word16 := w.extractLsb' 16 16

/-- The command of each opcode, with the fields it uses (R59, R60). -/
def decodeOpcode (w : Word64) : Except Reject Instr :=
  match (opc w).toNat with
  | 0x0 => .ok .reset
  | 0x1 => .ok (.setpwr (imm8 w))
  | 0x2 => .ok .getpwr
  | 0x3 => .ok (.setmode (imm8 w))
  | 0x4 => .ok .getmode
  | 0x5 => .ok (.setfan (imm8 w))
  | 0x6 => .ok .getfan
  | 0x7 => .ok (.settemp (imm8 w))
  | 0x8 => .ok .gettemp
  | 0x9 => .ok (.setvane (imm8 w))
  | 0xA => .ok .getvane
  | 0xB => .ok .cksum
  | 0xC => .ok .rawrd
  | 0xD => .ok (.send (rep16 w))
  | 0xE => .ok (.sendbuf (cnt16 w) (rep16 w))
  | 0xF => .ok (.sendpkd (cnt16 w) (rep16 w))
  | _ => .error .opcodeUnassigned

/-- `decode(w)` of R66; IGNORED is a rejection by name. -/
def decodeWord (w : Word64) : Except Reject Instr :=
  if rsv0 w ≠ 0#4 then .error .rsv0NonZero
  else if rsv1 w ≠ 0#16 then .error .rsv1NonZero
  else decodeOpcode w

/-- What the decoder reads from an opcode-table word: a command is one word of 64 bits (R63), numbered as the table
numbers it; bits at `nbits` and above are 0. -/
def decodeTableWord (nbits w : Nat) : Option Instr :=
  match decodeWord (BitVec.ofNat 64 (w % 2 ^ nbits)) with
  | .ok i => some i
  | .error _ => none

/-! ### The encoder -/

/-- The opcode of a command (R60). -/
def opcodeOf : Instr → BitVec 4
  | .reset => 0x0
  | .setpwr _ => 0x1
  | .getpwr => 0x2
  | .setmode _ => 0x3
  | .getmode => 0x4
  | .setfan _ => 0x5
  | .getfan => 0x6
  | .settemp _ => 0x7
  | .gettemp => 0x8
  | .setvane _ => 0x9
  | .getvane => 0xA
  | .cksum => 0xB
  | .rawrd => 0xC
  | .send _ => 0xD
  | .sendbuf _ _ => 0xE
  | .sendpkd _ _ => 0xF

/-- The `IMM8` field of a command; 0 where it uses none (R59). -/
def immOf : Instr → Byte
  | .setpwr v => v
  | .setmode v => v
  | .setfan v => v
  | .settemp v => v
  | .setvane v => v
  | .reset | .getpwr | .getmode | .getfan | .gettemp | .getvane | .cksum | .rawrd => 0
  | .send _ | .sendbuf _ _ | .sendpkd _ _ => 0

/-- The `CNT16` field of a command; 0 where it uses none (R59). -/
def cntOf : Instr → Word16
  | .sendbuf n _ => n
  | .sendpkd n _ => n
  | .reset | .getpwr | .getmode | .getfan | .gettemp | .getvane | .cksum | .rawrd => 0
  | .setpwr _ | .setmode _ | .setfan _ | .settemp _ | .setvane _ | .send _ => 0

/-- The `REP16` field of a command; 0 where it uses none (R59). -/
def repOf : Instr → Word16
  | .send r => r
  | .sendbuf _ r => r
  | .sendpkd _ r => r
  | .reset | .getpwr | .getmode | .getfan | .gettemp | .getvane | .cksum | .rawrd => 0
  | .setpwr _ | .setmode _ | .setfan _ | .settemp _ | .setvane _ => 0

/-- The fields of CMD64 laid out as R53's table has them, from bit 63 down; the reserved fields are 0. -/
def packWord (o : BitVec 4) (imm : Byte) (cnt rep : Word16) : Word64 :=
  o ++ 0#4 ++ imm ++ cnt ++ rep ++ 0#16

/-- The command word of a command. -/
def encode (i : Instr) : Word64 := packWord (opcodeOf i) (immOf i) (cntOf i) (repOf i)

/-- The bits of the word that a command uses (R59): `OPC` and its operand fields, with the reserved fields. Every other bit
is ignored (R62). -/
def usedBits : Instr → Word64
  | .setpwr _ | .setmode _ | .setfan _ | .settemp _ | .setvane _ => 0xFFFF00000000FFFF
  | .send _ => 0xFF000000FFFFFFFF
  | .sendbuf _ _ | .sendpkd _ _ => 0xFF00FFFFFFFFFFFF
  | .reset | .getpwr | .getmode | .getfan | .gettemp | .getvane | .cksum | .rawrd => 0xFF0000000000FFFF

/-! ### One word per constructor

The words are those of R64 and R65, of the examples of R68 to R88 and of vectors V30 to V38 (95_test_vectors.md), or are
laid out by hand from R53. -/

theorem decode_reset_word : decodeWord 0x0000000000000000 = .ok .reset := by decide
theorem decode_setpwr_word : decodeWord 0x1001000000000000 = .ok (.setpwr 1) := by decide
theorem decode_getpwr_word : decodeWord 0x2000000000000000 = .ok .getpwr := by decide
theorem decode_setmode_word : decodeWord 0x3009000000000000 = .ok (.setmode 9) := by decide
theorem decode_getmode_word : decodeWord 0x4000000000000000 = .ok .getmode := by decide
theorem decode_setfan_word : decodeWord 0x50C8000000000000 = .ok (.setfan 200) := by decide
theorem decode_getfan_word : decodeWord 0x6000000000000000 = .ok .getfan := by decide
theorem decode_settemp_word : decodeWord 0x7018000000000000 = .ok (.settemp 24) := by decide
theorem decode_gettemp_word : decodeWord 0x8000000000000000 = .ok .gettemp := by decide
theorem decode_setvane_word : decodeWord 0x9004000000000000 = .ok (.setvane 4) := by decide
theorem decode_getvane_word : decodeWord 0xA000000000000000 = .ok .getvane := by decide
theorem decode_cksum_word : decodeWord 0xB000000000000000 = .ok .cksum := by decide
theorem decode_rawrd_word : decodeWord 0xC000000000000000 = .ok .rawrd := by decide
theorem decode_send_word : decodeWord 0xD000000000020000 = .ok (.send 2) := by decide
theorem decode_sendbuf_word : decodeWord 0xE000000900030000 = .ok (.sendbuf 9 3) := by decide
theorem decode_sendpkd_word : decodeWord 0xF000004000010000 = .ok (.sendpkd 64 1) := by decide

end Sys2Proof
end

