-- ==== Sys2Proof/Config.lean ====
section
/-! DEFINITION. The implementation parameters of R7: plain constants, OPEN parameters, and the one free value. -/

namespace Sys2Proof

/-- `CHECKSUM_VARIANT` (R7, D8): which of R80 and R81 is `CSUM`. -/
inductive ChecksumVariant where
  | asWritten
  | highNibble
deriving DecidableEq, Repr

/-- What the model does with a reserved word (R61, D4): the hardware accepts and ignores it; D4 advises a model to
refuse a program that issues one. -/
inductive ReservedPolicy where
  | ignore
  | refuse
deriving DecidableEq, Repr

/-- The parameters that are arguments of the model (R7: "`OPEN` values are arguments the model takes"; log 1, 2, 9,
13, 14). -/
structure Params where
  /-- `RI2`: reset value of `SR[2]` (R21). -/
  ri2 : Byte
  /-- `RI3`: reset value of `SR[3]` (R21). -/
  ri3 : Byte
  /-- `RI5`: reset value of `SR[5]` (R21). -/
  ri5 : Byte
  /-- `RI6`: reset value of `SR[6]` (R21). -/
  ri6 : Byte
  /-- `RI7`: reset value of `SR[7]`, both nibbles (R23, R24). -/
  ri7 : Byte
  /-- `HB_SIZE`: how many bytes of the host buffer exist; indices are 16 bits wide, so at most 65536 (R40). -/
  hbSize : Fin 65537
  /-- `PACKED_BITS` (D12: "a model may take `PACKED_BITS` as a parameter ≤ 64"). -/
  packedBits : Fin 65
  /-- `CHECKSUM_VARIANT` (D8). -/
  variant : ChecksumVariant
  /-- Treatment of reserved words (D4). -/
  reserved : ReservedPolicy
deriving DecidableEq, Repr

namespace Config

/-- `SR_BYTES` (R7). -/
abbrev srBytes : Nat := 8

/-- `MIN_BYTES` (R7). -/
abbrev minBytes : Nat := 8

/-- `SPLIT_BYTES` (R7). -/
abbrev splitBytes : Nat := 4

/-- `FOOTER_VALUE`, `FOOTER_BITS` (R7). -/
abbrev footerValue : BitVec 3 := 0b010#3

/-- `CARRIER_KHZ` (R7). -/
abbrev carrierKHz : Nat := 38

/-- `HDR_MARK`, in µs (R7). -/
abbrev hdrMark : Nat := 9000

/-- `HDR_SPACE`, in µs (R7). -/
abbrev hdrSpace : Nat := 4000

/-- `BIT_MARK`, in µs (R7). -/
abbrev bitMark : Nat := 620

/-- `ONE_SPACE`, in µs (R7). -/
abbrev oneSpace : Nat := 1600

/-- `ZERO_SPACE`, in µs (R7). -/
abbrev zeroSpace : Nat := 540

/-- `MSG_SPACE`, in µs (R7). -/
abbrev msgSpace : Nat := 19000

/-- `CSUM_OFFSET` (R7). -/
abbrev csumOffset : Nat := 0x0A

/-- OPEN (R7, D10; log 1). -/
opaque ri2 : Byte

/-- OPEN (R7, D10; log 1). -/
opaque ri3 : Byte

/-- OPEN (R7, D10; log 1). -/
opaque ri5 : Byte

/-- OPEN (R7, D10; log 1). -/
opaque ri6 : Byte

/-- OPEN (R7, D10; log 1). -/
opaque ri7 : Byte

/-- OPEN (R7, D25; log 2). -/
opaque hbSize : Fin 65537

/-- FREE VALUE (log 10): the bit a run of bits would give past its end. No reachable state reads it (R104). -/
opaque strayBit : Nat → Bool

/-- The parameters the reset state carries: the OPEN ones unconstrained, the decided ones at the spec's defaults. -/
def params : Params where
  ri2 := ri2
  ri3 := ri3
  ri5 := ri5
  ri6 := ri6
  ri7 := ri7
  hbSize := hbSize
  packedBits := 64
  variant := .asWritten
  reserved := .ignore

end Config

end Sys2Proof
end

