-- ==== Sys2Proof/Machine/StateReg.lean ====
section
/-! DEFINITION. The State Register (R16): eight bytes, their reset contents, and the register as one 64-bit word. -/

namespace Sys2Proof.Machine

/-- `SR[0..7]` (R16). The fields inside the bytes are read and written in Operands.lean. -/
structure StateReg where
  /-- MODE `[2:0]`, POWER `[3]`, FAN `[7:4]` (R17, R18, R19). -/
  b0 : Byte
  /-- TEMP (R20). -/
  b1 : Byte
  /-- Reserved / mode-specific (R21). -/
  b2 : Byte
  /-- Reserved / mode-specific (R21). -/
  b3 : Byte
  /-- VANE (R22). -/
  b4 : Byte
  /-- Reserved / mode-specific (R21). -/
  b5 : Byte
  /-- Reserved / mode-specific (R21). -/
  b6 : Byte
  /-- CHECKSUM `[7:4]` and the unnamed low nibble (R23, R24). -/
  b7 : Byte
deriving DecidableEq, Repr

/-- The known-good default that RESET and `rst` write (R68, R35). -/
def StateReg.knownGood (p : Params) : StateReg where
  b0 := 0x00
  b1 := 0x00
  b2 := p.ri2
  b3 := p.ri3
  b4 := 0x00
  b5 := p.ri5
  b6 := p.ri6
  b7 := p.ri7

/-- The bytes in index order. -/
def StateReg.bytes (r : StateReg) : List Byte := [r.b0, r.b1, r.b2, r.b3, r.b4, r.b5, r.b6, r.b7]

/-- `{SR[0], ..., SR[7]}`, `SR[0]` most significant (R43, R83). -/
def StateReg.toWord (r : StateReg) : Word64 :=
  r.b0 ++ r.b1 ++ r.b2 ++ r.b3 ++ r.b4 ++ r.b5 ++ r.b6 ++ r.b7

end Sys2Proof.Machine
end

