-- ==== Sys2Proof/Machine/State.lean ====
section
/-! DEFINITION. The state of the block with its ports (INVENTORY.md, State), the reasons a step stops, and reset. -/

namespace Sys2Proof.Machine

/-- An output event to the collaborator (R9, R118): `CARRIER(k)` in kHz, `MARK(d)` and `SPACE(d)` in µs. -/
inductive Event where
  | carrier (kHz : Nat)
  | mark (us : Nat)
  | space (us : Nat)
deriving DecidableEq, Repr

/-- The serializer's phase `st` (R102). -/
inductive Phase where
  | idle
  | car
  | hm | hs
  | d1m | d1s
  | fm | fs
  | gm | gs
  | d2m | d2s
  | tm | ts
deriving DecidableEq, Repr

/-- A move of one agent (R4, R137; log 6). The host never withdraws a presented word, so there is no such move. -/
inductive Turn where
  /-- The core moves: while `BUSY = 1` the collaborator completes the outstanding event and the core takes its transition
  (R103); otherwise the core takes the presented command word, if there is one (R31). -/
  | core
  /-- `rst` is asserted (R123). -/
  | rst
  /-- The host drives `DATA_IN` (R29). -/
  | driveData (d : Word64)
  /-- The host writes one byte of its buffer (R137: "change `HB`"). -/
  | writeBuffer (i : Word16) (b : Byte)
  /-- The host presents one more command word, behind those already presented (R30, R136). -/
  | present (w : Word64)
deriving DecidableEq, Repr

/-- The host buffer's contents: (index, byte) pairs, indices rising, no byte listed that an unlisted index reads as
(Ops.lean: `Memory.unlisted`, `Memory.wf`; log 3). -/
abbrev Memory := List Host.Cell

/-- The block, its input and output ports, its parameters and the schedule of moves. -/
structure State where
  /-- The implementation parameters (R7); no step changes them (log 1). -/
  params : Params
  /-- The State Register `SR` (R16). -/
  sr : StateReg
  /-- `RESULT` (R27). -/
  result : Word64
  /-- `BUSY` (R28). -/
  busy : Bool
  /-- `st` (R32, R102). -/
  st : Phase
  /-- `rep`: repetitions completed (R32, R104). -/
  rep : Word16
  /-- `rmax`: the accepted `REP16` (R32, R104). -/
  rmax : Word16
  /-- `j`: index into the current bit run (R32). -/
  j : Nat
  /-- `S`: the snapshot bit sequence, in transmission order (R32). -/
  bits : List Bool
  /-- `K`: the split index (R32). -/
  split : Nat
  /-- `HB` (R40). -/
  hb : Memory
  /-- `DATA_IN` (R29). -/
  dataIn : Word64
  /-- The command port: the words presented and not yet accepted, oldest first; the head is on the port (R30, R136). -/
  cmds : List Word64
  /-- The output trace: every event issued, in issue order (R119). -/
  trace : List Event
  /-- The moves still to come; when none is listed, the core moves (log 6). -/
  turns : List Turn
deriving DecidableEq, Repr

/-- Why a step has no next state. The block itself raises nothing (R109). -/
inductive Fault where
  /-- Raised by SENDBUF with `CNT16 ≥ 8` when a byte with index below `CNT16` does not exist: "it is stuck, never given a
  value" (R132, D25). Safe: the model stops (log 11). -/
  | sendbufBeyondHostBuffer
  /-- Raised by a host write to an index at or above `HB_SIZE`: that byte does not exist (R40). Safe: the model stops
  (log 12). -/
  | hostWriteBeyondHostBuffer
deriving DecidableEq, Repr

/-- Why a step is refused. -/
inductive Refusal where
  /-- Raised by `exec` for an instruction without a meaning; no arm of it does. Safe. -/
  | notModelled (mnemonic : String)
  /-- Raised by the core's acceptance of a reserved word, under `ReservedPolicy.refuse` only (R61, D4). Safe (log 9). -/
  | reservedWord (w : Word64)
deriving DecidableEq, Repr

/-- The state after power-up and `rst` (R35, R123, R126): nothing presented, nothing issued. `rep`, `rmax`, `j`, `S`, `K` and
`DATA_IN` have no reset value in the spec (log 4, log 5). -/
def State.reset : State where
  params := Config.params
  sr := StateReg.knownGood Config.params
  result := 0
  busy := false
  st := .idle
  rep := 0
  rmax := 0
  j := 0
  bits := []
  split := 0
  hb := []
  dataIn := 0
  cmds := []
  trace := []
  turns := []

end Sys2Proof.Machine
end

