-- ==== Sys2Proof/Machine/Operands.lean ====
section
/-! DEFINITION. The fields of the State Register (R17 to R24), one reader and one writer each, and what each setter makes of
`IMM8` (R69 to R77). A writer keeps every other bit of its byte. -/

namespace Sys2Proof.Machine

/-- `b[7:4]`. -/
def highNibble (b : Byte) : BitVec 4 := b.extractLsb' 4 4

/-- `b[3:0]`. -/
def lowNibble (b : Byte) : BitVec 4 := b.extractLsb' 0 4

namespace StateReg

/-- MODE, `SR[0][2:0]` (R17). -/
def mode (r : StateReg) : BitVec 3 := r.b0.extractLsb' 0 3

/-- POWER, `SR[0][3]` (R18). -/
def power (r : StateReg) : BitVec 1 := r.b0.extractLsb' 3 1

/-- FAN, `SR[0][7:4]` (R19). -/
def fan (r : StateReg) : BitVec 4 := highNibble r.b0

/-- TEMP, `SR[1]` (R20). -/
def temp (r : StateReg) : Byte := r.b1

/-- VANE, `SR[4]` (R22). -/
def vane (r : StateReg) : Byte := r.b4

/-- CHECKSUM, `SR[7][7:4]` (R23). -/
def checksum (r : StateReg) : BitVec 4 := highNibble r.b7

/-- `SR[0][2:0] <- m`. -/
def setMode (r : StateReg) (m : BitVec 3) : StateReg := { r with b0 := r.b0.extractLsb' 3 5 ++ m }

/-- `SR[0][3] <- p`. -/
def setPower (r : StateReg) (p : BitVec 1) : StateReg :=
  { r with b0 := r.b0.extractLsb' 4 4 ++ p ++ r.b0.extractLsb' 0 3 }

/-- `SR[0][7:4] <- f`. -/
def setFan (r : StateReg) (f : BitVec 4) : StateReg := { r with b0 := f ++ lowNibble r.b0 }

/-- `SR[1] <- t`. -/
def setTemp (r : StateReg) (t : Byte) : StateReg := { r with b1 := t }

/-- `SR[4] <- v`. -/
def setVane (r : StateReg) (v : Byte) : StateReg := { r with b4 := v }

/-- `SR[7][7:4] <- c`. -/
def setChecksum (r : StateReg) (c : BitVec 4) : StateReg := { r with b7 := c ++ lowNibble r.b7 }

end StateReg

/-- SETPWR: every nonzero `IMM8` is On (R69, D6). -/
def powerValue (imm : Byte) : BitVec 1 := if imm = 0 then 0 else 1

/-- SETMODE: a code above 4 is Auto; it is not truncated (R71). -/
def modeValue (imm : Byte) : BitVec 3 := if imm.toNat ≤ 4 then imm.extractLsb' 0 3 else 0

/-- SETFAN: a code above 3 is High (R73). -/
def fanValue (imm : Byte) : BitVec 4 := BitVec.ofNat 4 (min imm.toNat 3)

/-- SETTEMP: °C clamped to 16..30, then offset by 16 (R75). -/
def tempValue (imm : Byte) : Byte := BitVec.ofNat 8 (min (max imm.toNat 16) 30 - 16)

/-- SETVANE: a code above 6 is Auto (R77). -/
def vaneValue (imm : Byte) : Byte := if imm.toNat ≤ 6 then imm else 0

/-- GETTEMP: `(SR[1] + 16) mod 2^8` (R76). -/
def celsius (r : StateReg) : Byte := r.temp + 16

end Sys2Proof.Machine
end

