-- ==== Sys2Proof/Machine/Flags.lean ====
section
/-! DEFINITION. What the block computes about its state: the checksum (R80, R81), whether it is stale (R13), the port's
`ready` and `valid` (R30), and the two size guards (R89, R90). There are no condition codes (R28). -/

namespace Sys2Proof.Machine

/-- `CSUM_AS_WRITTEN` (R80): the exact sum, narrowed to 4 bits at the end. -/
def csumAsWritten (r : StateReg) : BitVec 4 :=
  BitVec.ofNat 4 (Config.csumOffset
    + (lowNibble r.b0).toNat + (lowNibble r.b1).toNat + (lowNibble r.b2).toNat + (lowNibble r.b3).toNat
    + (r.b5 &&& 0x0F).toNat + (r.b6 &&& 0x0F).toNat + (r.b7 &&& 0x0F).toNat)

/-- `CSUM_HIGH_NIBBLE` (R81). -/
def csumHighNibble (r : StateReg) : BitVec 4 :=
  BitVec.ofNat 4 (Config.csumOffset
    + (lowNibble r.b0).toNat + (lowNibble r.b1).toNat + (lowNibble r.b2).toNat + (lowNibble r.b3).toNat
    + (highNibble r.b5).toNat + (highNibble r.b6).toNat + (highNibble r.b7).toNat)

/-- `CSUM(SR)` in the variant the parameters name (R9, R79). -/
def csum : ChecksumVariant → StateReg → BitVec 4
  | .asWritten, r => csumAsWritten r
  | .highNibble, r => csumHighNibble r

/-- The checksum is stale: `SR[7][7:4]` differs from `CSUM(SR)` (R13, R34). -/
abbrev stale (v : ChecksumVariant) (r : StateReg) : Prop := r.checksum ≠ csum v r

/-- `ready = NOT BUSY` (R30). -/
def ready (s : State) : Bool := !s.busy

/-- `valid`: a command word is on the port (R30). -/
def valid (s : State) : Bool := !s.cmds.isEmpty

/-- The byte-buffer size guard (R89). -/
abbrev bufferGuard (cnt : Word16) : Prop := Config.minBytes ≤ cnt.toNat

/-- The packed-integer size guard (R90). -/
abbrev packedGuard (p : Params) (cnt : Word16) : Prop := cnt.toNat = p.packedBits.val

end Sys2Proof.Machine
end

