-- ==== Sys2Proof/Machine/Grammar.lean ====
section
/-! DEFINITION. Bit sequences (R91, R92) and the pulse timing grammar (R94 to R97), as lists. The serializer
(Serializer.lean) does not use `repetition` or `burst`: they say what it must issue. -/

namespace Sys2Proof.Machine

/-- The bits of a value, most significant first (R42). -/
def msbFirst {n : Nat} (v : BitVec n) : List Bool := (List.range n).map fun k => v.getMsbD k

/-- `ByteBits(B)` (R91): bytes in index order, bit 7 first. -/
def byteBits (bs : List Byte) : List Bool := bs.flatMap msbFirst

/-- `PackedBits(D)` (R92): bits `n − 1` down to 0. -/
def packedBits (n : Nat) (d : Word64) : List Bool := (List.range n).map fun k => d.getLsbD (n - 1 - k)

/-- The footer `F` as bits (R97, R103). -/
def footer : List Bool := msbFirst Config.footerValue

/-- `sp(b)`: the space after a bit's mark (R94, R103). -/
def bitSpace (b : Bool) : Nat := if b then Config.oneSpace else Config.zeroSpace

/-- `Bits(L)` (R94). -/
def bitEvents (l : List Bool) : List Event := l.flatMap fun b => [.mark Config.bitMark, .space (bitSpace b)]

/-- The header (R96 step 1). -/
def headerEvents : List Event := [.mark Config.hdrMark, .space Config.hdrSpace]

/-- The gap and the trailer (R96 steps 4 and 6). -/
def gapEvents : List Event := [.mark Config.bitMark, .space Config.msgSpace]

/-- `Rep(S, K)` (R96). -/
def repetition (s : List Bool) (k : Nat) : List Event :=
  headerEvents ++ bitEvents (s.take k) ++ bitEvents footer ++ gapEvents ++ bitEvents (s.drop k) ++ gapEvents

/-- `n` copies of `Rep(S, K)`. -/
def repetitions (s : List Bool) (k n : Nat) : List Event := (List.replicate n (repetition s k)).flatten

/-- `Burst(S, K, r)` (R95). -/
def burst (s : List Bool) (k r : Nat) : List Event := .carrier Config.carrierKHz :: repetitions s k (r + 1)

/-- Nominal duration of an event in µs; a carrier takes none (R135). -/
def Event.micros : Event → Nat
  | .carrier _ => 0
  | .mark d => d
  | .space d => d

/-- Nominal duration of an event list in µs (R135; informative). -/
def nominal (es : List Event) : Nat := (es.map Event.micros).sum

/-- An event the core may issue (R98, R99). -/
def Event.legal : Event → Prop
  | .carrier k => k = Config.carrierKHz
  | .mark d => d = Config.hdrMark ∨ d = Config.bitMark
  | .space d => d = Config.hdrSpace ∨ d = Config.oneSpace ∨ d = Config.zeroSpace ∨ d = Config.msgSpace

end Sys2Proof.Machine
end

