-- ==== Sys2Proof/Machine/Ops.lean ====
section
/-! DEFINITION. The named operations: host buffer memory (R40), register writes (R27, R79), the command port (R30, R31), the
host's moves (R137) and the hardware reset (R123). The block takes no exceptions (R109, R115), so there is no exception
entry here and no return from one. -/

namespace Sys2Proof.Machine

/-! ### The host buffer -/

namespace Memory

/-- What an index with no listed cell reads as (log 3). -/
abbrev unlisted : Byte := 0x00

/-- The byte at an index. -/
def read : Memory → Nat → Byte
  | [], _ => unlisted
  | c :: m, a => if c.1 = a then c.2 else read m a

/-- The contents with one byte changed, in canonical form. -/
def write : Memory → Nat → Byte → Memory
  | [], a, b => if b = unlisted then [] else [(a, b)]
  | c :: m, a, b =>
    if a < c.1 then (if b = unlisted then c :: m else (a, b) :: c :: m)
    else if a = c.1 then (if b = unlisted then m else (a, b) :: m)
    else c :: write m a b

/-- The canonical form: indices strictly rising and 16 bits wide (R40), no cell that reads as an unlisted one. -/
abbrev wf (m : Memory) : Prop :=
  m.Pairwise (fun c d => c.1 < d.1) ∧ ∀ c ∈ m, c.1 < 65536 ∧ c.2 ≠ unlisted

end Memory

/-- `MemRead(i, 1)` (R40): none for a byte that does not exist. -/
def memRead (s : State) (i : Nat) : Option Byte :=
  if i < s.params.hbSize.val then some (Memory.read s.hb i) else none

/-- `[MemRead(i, 1) for i in 0 .. n-1]` (R87); none if one of those bytes does not exist. -/
def readBuffer (s : State) (n : Nat) : Option (List Byte) := (List.range n).mapM (memRead s)

namespace State

/-! ### Registers -/

/-- `SR <- r`. -/
def setSr (s : State) (r : StateReg) : State := { s with sr := r }

/-- `RESULT <- v` (R27). -/
def setResult (s : State) (v : Word64) : State := { s with result := v }

/-- `SR[7][7:4] <- CSUM(SR)` (R79). -/
def refreshChecksum (s : State) : State := s.setSr (s.sr.setChecksum (csum s.params.variant s.sr))

/-! ### Ports and schedule -/

/-- The core takes the word on the port (R31). -/
def takeCommand (s : State) : State := { s with cmds := s.cmds.tail }

/-- The move at the head of the schedule is used up. -/
def popTurn (s : State) : State := { s with turns := s.turns.tail }

/-- The host drives `DATA_IN` (R29). -/
def setDataIn (s : State) (d : Word64) : State := { s with dataIn := d }

/-- The host's buffer changes (R137). -/
def setHb (s : State) (m : Memory) : State := { s with hb := m }

/-- The host presents one more word (R136). -/
def presentCommand (s : State) (w : Word64) : State := { s with cmds := s.cmds ++ [w] }

/-! ### Hardware reset -/

/-- `rst` asserted for one step (R123): the State Register as RESET writes it, `RESULT`, `BUSY` and `st` cleared, no command
taken, no event issued. The serializer's other registers have no reset value in the spec (log 5). The ports, the
trace and the parameters are not the core's to reset (log 16). -/
def hardReset (s : State) : State :=
  { s with
    sr := StateReg.knownGood s.params
    result := 0
    busy := false
    st := .idle
    rep := 0
    rmax := 0
    j := 0
    bits := []
    split := 0 }

end State

/-- The host writes one byte of its buffer (R137); a byte at or above `HB_SIZE` does not exist (R40, log 12). -/
def hostWrite (s : State) (i : Word16) (b : Byte) : Host.Outcome State Fault Refusal :=
  if i.toNat < s.params.hbSize.val then .next (s.setHb (Memory.write s.hb i.toNat b))
  else .fault .hostWriteBeyondHostBuffer

end Sys2Proof.Machine
end

