-- ==== Sys2Proof/Machine/StateRegister.lean ====
section
/-! DEFINITION. The State Register commands (R67 to R83), each in the one step that accepts it. -/

namespace Sys2Proof.Machine

/-- RESET (R68). -/
def execReset (s : State) : Host.Outcome State Fault Refusal := .next (s.setSr (StateReg.knownGood s.params))

/-- SETPWR (R69). -/
def execSetpwr (imm : Byte) (s : State) : Host.Outcome State Fault Refusal :=
  .next (s.setSr (s.sr.setPower (powerValue imm)))

/-- GETPWR (R70). -/
def execGetpwr (s : State) : Host.Outcome State Fault Refusal := .next (s.setResult (s.sr.power.setWidth 64))

/-- SETMODE (R71). -/
def execSetmode (imm : Byte) (s : State) : Host.Outcome State Fault Refusal :=
  .next (s.setSr (s.sr.setMode (modeValue imm)))

/-- GETMODE (R72). -/
def execGetmode (s : State) : Host.Outcome State Fault Refusal := .next (s.setResult (s.sr.mode.setWidth 64))

/-- SETFAN (R73). -/
def execSetfan (imm : Byte) (s : State) : Host.Outcome State Fault Refusal :=
  .next (s.setSr (s.sr.setFan (fanValue imm)))

/-- GETFAN (R74). -/
def execGetfan (s : State) : Host.Outcome State Fault Refusal := .next (s.setResult (s.sr.fan.setWidth 64))

/-- SETTEMP (R75). -/
def execSettemp (imm : Byte) (s : State) : Host.Outcome State Fault Refusal :=
  .next (s.setSr (s.sr.setTemp (tempValue imm)))

/-- GETTEMP (R76). -/
def execGettemp (s : State) : Host.Outcome State Fault Refusal := .next (s.setResult ((celsius s.sr).setWidth 64))

/-- SETVANE (R77). -/
def execSetvane (imm : Byte) (s : State) : Host.Outcome State Fault Refusal :=
  .next (s.setSr (s.sr.setVane (vaneValue imm)))

/-- GETVANE (R78). -/
def execGetvane (s : State) : Host.Outcome State Fault Refusal := .next (s.setResult (s.sr.vane.setWidth 64))

/-- CKSUM (R79). -/
def execCksum (s : State) : Host.Outcome State Fault Refusal := .next s.refreshChecksum

/-- RAWRD (R83): the checksum first, then the copy. -/
def execRawrd (s : State) : Host.Outcome State Fault Refusal :=
  .next (s.refreshChecksum.setResult s.refreshChecksum.sr.toWord)

end Sys2Proof.Machine
end

