-- ==== Sys2Proof/Machine/Serializer.lean ====
section
/-! DEFINITION. The serializer (R85, R102 to R105): which event a phase issues, the transition on completion, and the start of
a burst. -/

namespace Sys2Proof.Machine

/-- Bit `j` of a run. Past its end, which no reachable state reads, it is a free bit (log 10). -/
def bitAt (l : List Bool) (j : Nat) : Bool := l[j]?.getD (Config.strayBit j)

/-- The event issued on entering a phase (R103, second column); `IDLE` issues none. -/
def phaseEvent (s : State) : Phase → List Event
  | .idle => []
  | .car => [.carrier Config.carrierKHz]
  | .hm => [.mark Config.hdrMark]
  | .hs => [.space Config.hdrSpace]
  | .d1m => [.mark Config.bitMark]
  | .d1s => [.space (bitSpace (bitAt s.bits s.j))]
  | .fm => [.mark Config.bitMark]
  | .fs => [.space (bitSpace (bitAt footer s.j))]
  | .gm => [.mark Config.bitMark]
  | .gs => [.space Config.msgSpace]
  | .d2m => [.mark Config.bitMark]
  | .d2s => [.space (bitSpace (bitAt s.bits s.j))]
  | .tm => [.mark Config.bitMark]
  | .ts => [.space Config.msgSpace]

namespace State

/-- `st <- p`: the phase is entered and its event is issued (R103, R119). -/
def enter (s : State) (p : Phase) : State := { s with st := p, trace := s.trace ++ phaseEvent s p }

/-- `j <- n`. -/
def setJ (s : State) (n : Nat) : State := { s with j := n }

/-- `rep <- rep + 1` (R103, phase `TS`). -/
def nextRep (s : State) : State := { s with rep := s.rep + 1 }

/-- `st <- IDLE; BUSY <- 0` (R103, R105). -/
def finishBurst (s : State) : State := { s with st := .idle, busy := false }

/-- `start Burst(S, K, r)` in the acceptance step (R85 (3) and (4), R106): the snapshot is taken and `CAR` is entered. -/
def startBurst (s : State) (bits : List Bool) (split : Nat) (r : Word16) : State :=
  { s with bits := bits, split := split, rep := 0, rmax := r, busy := true }.enter .car

/-- The transition when the collaborator completes the outstanding event (R103, third column). -/
def advance (s : State) : State :=
  match s.st with
  | .idle => s
  | .car => s.enter .hm
  | .hm => s.enter .hs
  | .hs => if 0 < s.split then (s.setJ 0).enter .d1m else (s.setJ 0).enter .fm
  | .d1m => s.enter .d1s
  | .d1s => if s.j + 1 < s.split then (s.setJ (s.j + 1)).enter .d1m else (s.setJ 0).enter .fm
  | .fm => s.enter .fs
  | .fs => if s.j + 1 < footer.length then (s.setJ (s.j + 1)).enter .fm else s.enter .gm
  | .gm => s.enter .gs
  | .gs => if s.split < s.bits.length then (s.setJ s.split).enter .d2m else (s.setJ s.split).enter .tm
  | .d2m => s.enter .d2s
  | .d2s => if s.j + 1 < s.bits.length then (s.setJ (s.j + 1)).enter .d2m else s.enter .tm
  | .tm => s.enter .ts
  | .ts => if s.rep < s.rmax then s.nextRep.enter .hm else s.finishBurst

end State

end Sys2Proof.Machine
end

