-- ==== Sys2Proof/Machine/Transmit.lean ====
section
/-! DEFINITION. The transmit commands (R85 to R90): the guard, the snapshot and the start of the burst, in the acceptance
step. -/

namespace Sys2Proof.Machine

/-- The split index of the byte-buffer forms, `8 * SPLIT_BYTES` (R86, R87, R101). -/
abbrev byteSplit : Nat := 8 * Config.splitBytes

/-- SEND (R86): no guard; the checksum is written before the snapshot (R93). -/
def execSend (r : Word16) (s : State) : Host.Outcome State Fault Refusal :=
  .next (s.refreshChecksum.startBurst (byteBits s.refreshChecksum.sr.bytes) byteSplit r)

/-- SENDBUF (R87): a no-op below the minimum (R89); stuck if a byte it reads does not exist (R132). -/
def execSendbuf (cnt r : Word16) (s : State) : Host.Outcome State Fault Refusal :=
  if bufferGuard cnt then
    match readBuffer s cnt.toNat with
    | some bs => .next (s.startBurst (byteBits bs) byteSplit r)
    | none => .fault .sendbufBeyondHostBuffer
  else .next s

/-- SENDPKD (R88): a no-op unless the count is the fixed total (R90); `K = PACKED_BITS div 2`. -/
def execSendpkd (cnt r : Word16) (s : State) : Host.Outcome State Fault Refusal :=
  if packedGuard s.params cnt then
    .next (s.startBurst (packedBits s.params.packedBits.val s.dataIn) (s.params.packedBits.val / 2) r)
  else .next s

end Sys2Proof.Machine
end

