-- ==== Sys2Proof/Machine/Dispatch.lean ====
section
/-! DEFINITION. One arm per command. -/

namespace Sys2Proof.Machine

def exec (i : Instr) (s : State) : Host.Outcome State Fault Refusal :=
  match i with
  | .reset => Sys2Proof.Machine.execReset s
  | .setpwr imm => Sys2Proof.Machine.execSetpwr imm s
  | .getpwr => Sys2Proof.Machine.execGetpwr s
  | .setmode imm => Sys2Proof.Machine.execSetmode imm s
  | .getmode => Sys2Proof.Machine.execGetmode s
  | .setfan imm => Sys2Proof.Machine.execSetfan imm s
  | .getfan => Sys2Proof.Machine.execGetfan s
  | .settemp imm => Sys2Proof.Machine.execSettemp imm s
  | .gettemp => Sys2Proof.Machine.execGettemp s
  | .setvane imm => Sys2Proof.Machine.execSetvane imm s
  | .getvane => Sys2Proof.Machine.execGetvane s
  | .cksum => Sys2Proof.Machine.execCksum s
  | .rawrd => Sys2Proof.Machine.execRawrd s
  | .send r => Sys2Proof.Machine.execSend r s
  | .sendbuf cnt r => Sys2Proof.Machine.execSendbuf cnt r s
  | .sendpkd cnt r => Sys2Proof.Machine.execSendpkd cnt r s

end Sys2Proof.Machine
end

