-- ==== Sys2Proof/Machine/Port.lean ====
section
/-! DEFINITION. The moves of the agents: the core's acceptance of a command word (R30, R31, R61), its move (R103), and each
listed turn (R114, R123, R137). -/

namespace Sys2Proof.Machine

/-- A reserved word: accepted and ignored (R61), or refused where the parameters say so (D4; log 9). `s` has taken the word
from the port already. -/
def ignoreReserved (w : Word64) (s : State) : Host.Outcome State Fault Refusal :=
  match s.params.reserved with
  | .ignore => .next s
  | .refuse => .refused (.reservedWord w)

/-- The acceptance step for the word on the port (R31). -/
def accept (w : Word64) (s : State) : Host.Outcome State Fault Refusal :=
  match decodeWord w with
  | .ok i => exec i s.takeCommand
  | .error _ => ignoreReserved w s.takeCommand

/-- The core's move: the completion of the outstanding event while not ready (R103); else the acceptance of the word on the
port (R30); else nothing, since the block is idle (R122; log 17). -/
def coreMove (s : State) : Host.Outcome State Fault Refusal :=
  if ready s then
    match s.cmds with
    | w :: _ => accept w s
    | [] => .next s
  else .next s.advance

/-- One move of one agent. `s` has its schedule popped already. -/
def move (t : Turn) (s : State) : Host.Outcome State Fault Refusal :=
  match t with
  | .core => coreMove s
  | .rst => .next s.hardReset
  | .driveData d => .next (s.setDataIn d)
  | .writeBuffer i b => hostWrite s i b
  | .present w => .next (s.presentCommand w)

/-- The move that comes next: the head of the schedule; the core where nothing is listed (log 6). -/
def nextTurn (s : State) : Turn := s.turns.headD .core

/-- The next move is made. -/
def takeTurn (s : State) : Host.Outcome State Fault Refusal := move (nextTurn s) s.popTurn

/-- The state in which the next move is the core's acceptance of `w`: `w` is on the port before any other word, `BUSY = 0`, and
it is the core's turn (log 8). -/
def presentFirst (s : State) (w : Word64) : State :=
  { s with cmds := w :: s.cmds, turns := .core :: s.turns, busy := false, st := .idle }

end Sys2Proof.Machine
end

