-- ==== Sys2Proof/Machine/Step.lean ====
section
/-! DEFINITION. One step of the machine: one move of one agent. -/

namespace Sys2Proof.Machine

/-- One move of one agent (log 6). -/
def step (s : State) : Host.Outcome State Fault Refusal := takeTurn s

/-- The opcode-table word `w` of `nbits` bits placed so that the next step accepts it. -/
def State.withFetchWord (s : State) (nbits w : Nat) : State := presentFirst s (BitVec.ofNat 64 (w % 2 ^ nbits))

end Sys2Proof.Machine
end

