-- ==== Sys2Proof/Machine/Assembler.lean ====
section
/-! DEFINITION. The assembler (R64, R65): a source line to a statement, a statement to its command, a command to its word. The
text conventions R64 leaves open (white space, letter case) are log 19. -/

namespace Sys2Proof.Machine

/-! ### Statements to words -/

/-- Power values (R64). -/
def PowerName.code : PowerName → Nat
  | .off => 0
  | .on => 1

/-- Mode codes (R64, R14). -/
def ModeName.code : ModeName → Nat
  | .auto => 0
  | .cool => 1
  | .dry => 2
  | .fan => 3
  | .heat => 4

/-- Fan codes (R64, R14). -/
def FanName.code : FanName → Nat
  | .auto => 0
  | .low => 1
  | .med => 2
  | .high => 3

/-- Vane codes (R64, R14). -/
def VaneName.code : VaneName → Nat
  | .auto => 0
  | .swing => 1
  | .up => 2
  | .midup => 3
  | .middle => 4
  | .middown => 5
  | .down => 6

/-- The number an operand stands for. -/
def operandValue {α : Type} (code : α → Nat) : Operand α → Nat
  | .num n => n
  | .name a => code a

/-- A number as an `IMM8` field. -/
def immField (n : Nat) : Byte := BitVec.ofNat 8 n

/-- A number as a `CNT16` or `REP16` field. -/
def field16 (n : Nat) : Word16 := BitVec.ofNat 16 n

/-- The command a statement stands for, pseudo-instructions expanded (R65). -/
def expand : Stmt → Instr
  | .reset => .reset
  | .setpwr v => .setpwr (immField (operandValue PowerName.code v))
  | .getpwr => .getpwr
  | .setmode v => .setmode (immField (operandValue ModeName.code v))
  | .getmode => .getmode
  | .setfan v => .setfan (immField (operandValue FanName.code v))
  | .getfan => .getfan
  | .settemp v => .settemp (immField v)
  | .gettemp => .gettemp
  | .setvane v => .setvane (immField (operandValue VaneName.code v))
  | .getvane => .getvane
  | .cksum => .cksum
  | .rawrd => .rawrd
  | .send r => .send (field16 r)
  | .sendbuf n r => .sendbuf (field16 n) (field16 r)
  | .sendpkd n r => .sendpkd (field16 n) (field16 r)
  | .poweron => .setpwr 1
  | .poweroff => .setpwr 0
  | .sendOnce => .send 0
  | .sendstate r => .sendbuf 8 (field16 r)
  | .sendpkd64 r => .sendpkd 64 (field16 r)

/-- The command word of a statement; none is the assembler error of an operand out of its range (R64). -/
def assemble (x : Stmt) : Option Word64 := if x.wf then some (encode (expand x)) else none

/-! ### Source lines to statements -/

/-- White space inside a line. -/
def isBlank (c : Char) : Bool := c = ' ' || c = '\t' || c = '\r'

/-- Without white space at either end. -/
def trim (l : List Char) : List Char := ((l.dropWhile isBlank).reverse.dropWhile isBlank).reverse

/-- What stands before the comment (R64: "`;` starting a comment"). -/
def beforeComment (l : List Char) : List Char := l.takeWhile (· ≠ ';')

/-- The operands, which commas separate. -/
def splitCommas : List Char → List (List Char)
  | [] => [[]]
  | c :: l =>
    if c = ',' then [] :: splitCommas l
    else
      match splitCommas l with
      | [] => [[c]]
      | x :: xs => (c :: x) :: xs

/-- The value of a digit, in either letter case. -/
def digitValue (c : Char) : Option Nat :=
  if '0' ≤ c ∧ c ≤ '9' then some (c.toNat - '0'.toNat)
  else if 'a' ≤ c ∧ c ≤ 'f' then some (c.toNat - 'a'.toNat + 10)
  else if 'A' ≤ c ∧ c ≤ 'F' then some (c.toNat - 'A'.toNat + 10)
  else none

/-- Digits in a base, after the value read so far. -/
def digits (base : Nat) : Nat → List Char → Option Nat
  | acc, [] => some acc
  | acc, c :: l =>
    match digitValue c with
    | some d => if d < base then digits base (acc * base + d) l else none
    | none => none

/-- An unsigned number in decimal or `0x` hex (R64). -/
def number (l : List Char) : Option Nat :=
  match l with
  | [] => none
  | '0' :: 'x' :: [] => none
  | '0' :: 'x' :: ds => digits 16 0 ds
  | ds => digits 10 0 ds

/-- A setter operand: a symbolic value of the table, or a number. -/
def operand {α : Type} (names : List (String × α)) (l : List Char) : Option (Operand α) :=
  match names.find? (fun e => e.1.toList = l) with
  | some e => some (.name e.2)
  | none => (number l).map .num

/-- Symbolic power values (R64). -/
def powerNames : List (String × PowerName) := [("OFF", .off), ("ON", .on)]

/-- Symbolic mode codes (R64). -/
def modeNames : List (String × ModeName) :=
  [("AUTO", .auto), ("COOL", .cool), ("DRY", .dry), ("FAN", .fan), ("HEAT", .heat)]

/-- Symbolic fan codes (R64). -/
def fanNames : List (String × FanName) := [("AUTO", .auto), ("LOW", .low), ("MED", .med), ("HIGH", .high)]

/-- Symbolic vane codes (R64). -/
def vaneNames : List (String × VaneName) :=
  [("AUTO", .auto), ("SWING", .swing), ("UP", .up), ("MIDUP", .midup), ("MIDDLE", .middle), ("MIDDOWN", .middown),
    ("DOWN", .down)]

/-- A statement with no operand (R64, R65). -/
def statement0 (m : String) : Option Stmt :=
  match m with
  | "RESET" => some .reset
  | "GETPWR" => some .getpwr
  | "GETMODE" => some .getmode
  | "GETFAN" => some .getfan
  | "GETTEMP" => some .gettemp
  | "GETVANE" => some .getvane
  | "CKSUM" => some .cksum
  | "RAWRD" => some .rawrd
  | "SEND" => some .sendOnce
  | "POWERON" => some .poweron
  | "POWEROFF" => some .poweroff
  | _ => none

/-- A statement with one operand (R64, R65). -/
def statement1 (m : String) (a : List Char) : Option Stmt :=
  match m with
  | "SETPWR" => (operand powerNames a).map .setpwr
  | "SETMODE" => (operand modeNames a).map .setmode
  | "SETFAN" => (operand fanNames a).map .setfan
  | "SETTEMP" => (number a).map .settemp
  | "SETVANE" => (operand vaneNames a).map .setvane
  | "SEND" => (number a).map .send
  | "SENDSTATE" => (number a).map .sendstate
  | "SENDPKD64" => (number a).map .sendpkd64
  | _ => none

/-- A statement with two operands (R64). -/
def statement2 (m : String) (a b : List Char) : Option Stmt :=
  match m, number a, number b with
  | "SENDBUF", some n, some r => some (.sendbuf n r)
  | "SENDPKD", some n, some r => some (.sendpkd n r)
  | _, _, _ => none

/-- What a source line holds. -/
inductive Line where
  /-- Nothing but white space and a comment. -/
  | empty
  | stmt (x : Stmt)
  | error
deriving DecidableEq, Repr

/-- A statement, or the error that the text is none. -/
def lineOf : Option Stmt → Line
  | some x => .stmt x
  | none => .error

/-- One source line (R64): a mnemonic, then its operands separated by commas, then perhaps a comment. -/
def parseLine (l : List Char) : Line :=
  match trim (beforeComment l) with
  | [] => .empty
  | body =>
    let m := String.ofList (body.takeWhile fun c => !isBlank c)
    match trim (body.dropWhile fun c => !isBlank c) with
    | [] => lineOf (statement0 m)
    | ops =>
      match (splitCommas ops).map trim with
      | [a] => lineOf (statement1 m a)
      | [a, b] => lineOf (statement2 m a b)
      | _ => .error

/-- The words of a source program (R136), or none where a line is an assembler error. -/
def assembleLines : List (List Char) → Option (List Word64)
  | [] => some []
  | l :: ls =>
    match parseLine l, assembleLines ls with
    | .empty, some ws => some ws
    | .stmt x, some ws => (assemble x).map (· :: ws)
    | _, _ => none

end Sys2Proof.Machine
end

