-- ==== Sys2Proof/Safety.lean ====
section
/-! DEFINITION. What claims use: the invariants of the block, runs that do not stop, the end of a run and what is observed then,
what a statement assembles to. -/

namespace Sys2Proof.Machine

/-- Only legal codes are stored: MODE ≤ 4, FAN ≤ 3, TEMP ≤ 14, VANE ≤ 6 (R26). -/
def StateReg.legal (r : StateReg) : Prop :=
  r.mode.toNat ≤ 4 ∧ r.fan.toNat ≤ 3 ∧ r.temp.toNat ≤ 14 ∧ r.vane.toNat ≤ 6

/-- The bytes only a reset writes hold their reset values (R133). -/
def StateReg.carriesDefaults (p : Params) (r : StateReg) : Prop :=
  r.b2 = p.ri2 ∧ r.b3 = p.ri3 ∧ r.b5 = p.ri5 ∧ r.b6 = p.ri6 ∧ lowNibble r.b7 = lowNibble p.ri7

/-- The command word a turn presents, if it presents one (R30). -/
def Turn.presented : Turn → Option Word64
  | .present w => some w
  | .core | .rst | .driveData _ | .writeBuffer _ _ => none

namespace State

/-- `BUSY = 1` exactly while a burst is in one of its phases (R28, R32, R102). -/
def statusAgrees (s : State) : Prop := s.busy = true ↔ s.st ≠ .idle

/-- `j` indexes the run the phase walks (R103, R104). -/
def indexOk (s : State) : Prop :=
  match s.st with
  | .d1m | .d1s => s.j < s.split
  | .fm | .fs => s.j < footer.length
  | .d2m | .d2s => s.split ≤ s.j ∧ s.j < s.bits.length
  | .idle | .car | .hm | .hs | .gm | .gs | .tm | .ts => True

/-- The serializer's registers during a burst (R103, R104). -/
def burstOk (s : State) : Prop :=
  s.busy = true → s.rep ≤ s.rmax ∧ s.split ≤ s.bits.length ∧ s.bits.length ≤ 8 * 65535 ∧ s.indexOk

/-- The host buffer is canonical and lists only bytes that exist (R40). -/
def bufferOk (s : State) : Prop := Memory.wf s.hb ∧ ∀ c ∈ s.hb, c.1 < s.params.hbSize.val

/-- Every event in the trace is one the core may issue (R98, R99). -/
def traceLegal (s : State) : Prop := ∀ e ∈ s.trace, e.legal

/-- The invariant every step keeps. -/
structure Inv (s : State) : Prop where
  legal : s.sr.legal
  defaults : s.sr.carriesDefaults s.params
  status : s.statusAgrees
  serializer : s.burstOk
  buffer : s.bufferOk
  trace : s.traceLegal

/-- What is left of the host program (R136): the words on the port, then those the host still has to present, in the order of
their acceptance. -/
def pending (s : State) : List Word64 := s.cmds ++ s.turns.filterMap Turn.presented

/-- A state at which a run ends, or after its end (R136): every command has been accepted and `BUSY = 0`, whatever other moves
are still scheduled. -/
def ended (s : State) : Prop := s.pending = [] ∧ s.busy = false

/-- The observable outcome of a run (R136): the State Register, `RESULT` and the output event trace. -/
def observed (s : State) : StateReg × Word64 × List Event := (s.sr, s.result, s.trace)

end State

/-- The commands that may start a burst (R31, R85). -/
def isTransmit : Instr → Bool
  | .send _ | .sendbuf _ _ | .sendpkd _ _ => true
  | .reset | .setpwr _ | .getpwr | .setmode _ | .getmode | .setfan _ | .getfan | .settemp _ | .gettemp | .setvane _
  | .getvane | .cksum | .rawrd => false

/-- The five getters (R25). -/
def isGetter : Instr → Bool
  | .getpwr | .getmode | .getfan | .gettemp | .getvane => true
  | .reset | .setpwr _ | .setmode _ | .setfan _ | .settemp _ | .setvane _ | .cksum | .rawrd | .send _ | .sendbuf _ _
  | .sendpkd _ _ => false

/-- The next step is the acceptance of the command `i` (R30, R31). -/
def State.accepts (s : State) (i : Instr) : Prop :=
  s.busy = false ∧ nextTurn s = .core ∧ ∃ w ws, s.cmds = w :: ws ∧ decodeWord w = .ok i

/-- `n` steps from `s` go to `t` without a stop. -/
def runsTo (n : Nat) (s t : State) : Prop := Sys2Proof.core.run n s = .next t

/-- The run from `s` ends after `n` steps, in `t`: the first state at which every command has been accepted and `BUSY = 0` (R136).
Its outcome is `t.observed`. -/
def runEnds (n : Nat) (s t : State) : Prop := runsTo n s t ∧ t.ended ∧ ∀ m u, m < n → runsTo m s u → ¬u.ended

/-- The statement assembles to the word `w`, whose reserved fields are 0 and which decodes to `i` (R64). -/
def assemblesTo (x : Stmt) (w : Word64) (i : Instr) : Prop :=
  assemble x = some w ∧ rsv0 w = 0#4 ∧ rsv1 w = 0#16 ∧ decodeWord w = .ok i

/-- The events of the burst a state is carrying (R95). -/
def currentBurst (s : State) : List Event := burst s.bits s.split s.rmax.toNat

end Sys2Proof.Machine
end

