-- ==== Sys2Proof/Certificates/Slice0/Obligations.lean ====
section
/-! DEFINITION. The statements for the provers. They speak of bytes as numbers and of bits by position, the way the spec does,
and not through the model's field writers, so that a wrong field or a wrong bit order makes them false. Where a
statement holds over all states, it quantifies over the parameters too (they are a field of the state, log 1). -/

open Sys2Proof Sys2Proof.Machine

/-! ### Encoding -/

/-- R53, R59, R60, R66: every command's word decodes to it, every operand at every value. -/
def Obligations.DecodeOfEncodeIsTheCommand : Prop :=
  ∀ i : Instr, decodeWord (encode i) = .ok i

/-- R54: `OPC` selects the command, and all 16 values are assigned: every word whose reserved fields are 0 decodes, to a command
of its opcode. -/
def Obligations.EveryOpcodeIsAssigned : Prop :=
  ∀ w : Word64, rsv0 w = 0#4 → rsv1 w = 0#16 →
    ∃ i, decodeWord w = .ok i ∧ (opcodeOf i).toNat = w.toNat / 2 ^ 60

/-- R62: two words that agree on the fields the command uses (R59) decode alike, and neither is reserved. -/
def Obligations.UnusedFieldsAreIgnored : Prop :=
  ∀ (w w' : Word64) (i : Instr), decodeWord w = .ok i → w' &&& usedBits i = w &&& usedBits i →
    decodeWord w' = .ok i ∧ encode i = w' &&& usedBits i

/-- Words written out from R53, most of them vectors V30 to V39 (95_test_vectors.md). V38's word has `RSV0 = 0xF` and is reserved by
R61, although the vector calls it GETPWR; the rule is followed (log 20), and the word V38 means is given beside it. -/
def Obligations.WrittenOutWordsDecode : Prop :=
  decodeWord 0x0000000000000000 = .ok .reset ∧
  decodeWord 0x1001000000000000 = .ok (.setpwr 1) ∧
  decodeWord 0x50C8000000000000 = .ok (.setfan 200) ∧
  decodeWord 0xD000000000020000 = .ok (.send 2) ∧
  decodeWord 0xE000000900000000 = .ok (.sendbuf 9 0) ∧
  decodeWord 0xF000004000000000 = .ok (.sendpkd 64 0) ∧
  decodeWord 0x0100000000000000 = .error .rsv0NonZero ∧
  decodeWord 0xD00000000000FFFF = .error .rsv1NonZero ∧
  decodeWord 0x20FFFFFFFFFF0000 = .ok .getpwr ∧
  decodeWord 0x2FFFFFFFFFFF0000 = .error .rsv0NonZero ∧
  decodeWord 0x3109000000000000 = .error .rsv0NonZero

/-- R64: the word of every statement, its ranges and its symbolic values in literal numbers, and the command that word decodes
to; a statement with an operand out of its range is an assembler error. (The words of R65's pseudo-instructions are stated
in `PseudoInstructionWords`.) -/
def Obligations.AssembledWordsDecode : Prop :=
  (∀ v : Nat, v ≤ 255 →
    assemblesTo (.setpwr (.num v)) (0x1000000000000000 ||| BitVec.ofNat 64 v <<< 48) (.setpwr (BitVec.ofNat 8 v)) ∧
    assemblesTo (.setmode (.num v)) (0x3000000000000000 ||| BitVec.ofNat 64 v <<< 48) (.setmode (BitVec.ofNat 8 v)) ∧
    assemblesTo (.setfan (.num v)) (0x5000000000000000 ||| BitVec.ofNat 64 v <<< 48) (.setfan (BitVec.ofNat 8 v)) ∧
    assemblesTo (.settemp v) (0x7000000000000000 ||| BitVec.ofNat 64 v <<< 48) (.settemp (BitVec.ofNat 8 v)) ∧
    assemblesTo (.setvane (.num v)) (0x9000000000000000 ||| BitVec.ofNat 64 v <<< 48) (.setvane (BitVec.ofNat 8 v))) ∧
  (∀ v : Nat, 255 < v →
    assemble (.setpwr (.num v)) = none ∧ assemble (.setmode (.num v)) = none ∧ assemble (.setfan (.num v)) = none ∧
    assemble (.settemp v) = none ∧ assemble (.setvane (.num v)) = none) ∧
  (∀ r : Nat, r ≤ 65535 →
    assemblesTo (.send r) (0xD000000000000000 ||| BitVec.ofNat 64 r <<< 16) (.send (BitVec.ofNat 16 r)) ∧
    ∀ n : Nat, n ≤ 65535 →
      assemblesTo (.sendbuf n r) (0xE000000000000000 ||| BitVec.ofNat 64 n <<< 32 ||| BitVec.ofNat 64 r <<< 16)
        (.sendbuf (BitVec.ofNat 16 n) (BitVec.ofNat 16 r)) ∧
      assemblesTo (.sendpkd n r) (0xF000000000000000 ||| BitVec.ofNat 64 n <<< 32 ||| BitVec.ofNat 64 r <<< 16)
        (.sendpkd (BitVec.ofNat 16 n) (BitVec.ofNat 16 r))) ∧
  (∀ r : Nat, 65535 < r →
    assemble (.send r) = none ∧ assemble (.sendstate r) = none ∧ assemble (.sendpkd64 r) = none) ∧
  (∀ n r : Nat, 65535 < n ∨ 65535 < r → assemble (.sendbuf n r) = none ∧ assemble (.sendpkd n r) = none) ∧
  assemblesTo .reset 0x0000000000000000 .reset ∧ assemblesTo .getpwr 0x2000000000000000 .getpwr ∧
  assemblesTo .getmode 0x4000000000000000 .getmode ∧ assemblesTo .getfan 0x6000000000000000 .getfan ∧
  assemblesTo .gettemp 0x8000000000000000 .gettemp ∧ assemblesTo .getvane 0xA000000000000000 .getvane ∧
  assemblesTo .cksum 0xB000000000000000 .cksum ∧ assemblesTo .rawrd 0xC000000000000000 .rawrd ∧
  assemblesTo (.setpwr (.name .off)) 0x1000000000000000 (.setpwr 0) ∧
  assemblesTo (.setpwr (.name .on)) 0x1001000000000000 (.setpwr 1) ∧
  assemblesTo (.setmode (.name .auto)) 0x3000000000000000 (.setmode 0) ∧
  assemblesTo (.setmode (.name .cool)) 0x3001000000000000 (.setmode 1) ∧
  assemblesTo (.setmode (.name .dry)) 0x3002000000000000 (.setmode 2) ∧
  assemblesTo (.setmode (.name .fan)) 0x3003000000000000 (.setmode 3) ∧
  assemblesTo (.setmode (.name .heat)) 0x3004000000000000 (.setmode 4) ∧
  assemblesTo (.setfan (.name .auto)) 0x5000000000000000 (.setfan 0) ∧
  assemblesTo (.setfan (.name .low)) 0x5001000000000000 (.setfan 1) ∧
  assemblesTo (.setfan (.name .med)) 0x5002000000000000 (.setfan 2) ∧
  assemblesTo (.setfan (.name .high)) 0x5003000000000000 (.setfan 3) ∧
  assemblesTo (.setvane (.name .auto)) 0x9000000000000000 (.setvane 0) ∧
  assemblesTo (.setvane (.name .swing)) 0x9001000000000000 (.setvane 1) ∧
  assemblesTo (.setvane (.name .up)) 0x9002000000000000 (.setvane 2) ∧
  assemblesTo (.setvane (.name .midup)) 0x9003000000000000 (.setvane 3) ∧
  assemblesTo (.setvane (.name .middle)) 0x9004000000000000 (.setvane 4) ∧
  assemblesTo (.setvane (.name .middown)) 0x9005000000000000 (.setvane 5) ∧
  assemblesTo (.setvane (.name .down)) 0x9006000000000000 (.setvane 6)

/-- R65: the pseudo-instructions' words. -/
def Obligations.PseudoInstructionWords : Prop :=
  assemble .poweron = some 0x1001000000000000 ∧
  assemble .poweroff = some 0x1000000000000000 ∧
  assemble .sendOnce = some 0xD000000000000000 ∧
  ∀ r : Nat, r ≤ 65535 →
    assemble (.sendstate r) = some (0xE000000800000000 ||| (BitVec.ofNat 64 r <<< 16)) ∧
    assemble (.sendpkd64 r) = some (0xF000004000000000 ||| (BitVec.ofNat 64 r <<< 16))

/-! ### The step -/

/-- R30, R31, R66: while `BUSY = 0` and it is the core's turn, a step takes the word on the port and runs the command it
decodes to; around that, the step takes the word off the port and the turn off the schedule (log 6), nothing else. -/
def Obligations.StepRunsTheDecodedCommand : Prop :=
  ∀ (s : State) (w : Word64) (ws : List Word64) (i : Instr),
    s.busy = false → nextTurn s = .core → s.cmds = w :: ws → decodeWord w = .ok i →
    step s = exec i { s with cmds := ws, turns := s.turns.tail }

/-- R61: a reserved word is accepted and ignored, and the next command is taken as usual; under the refusing policy D4 allows
a model, the step is refused by name (log 9). -/
def Obligations.ReservedWordsAreIgnored : Prop :=
  ∀ (s : State) (w : Word64) (ws : List Word64),
    s.busy = false → nextTurn s = .core → s.cmds = w :: ws → ¬(rsv0 w = 0#4 ∧ rsv1 w = 0#16) →
    (s.params.reserved = .ignore → step s = .next { s with cmds := ws, turns := s.turns.tail }) ∧
    (s.params.reserved = .refuse → step s = .refused (.reservedWord w))

/-- R131: while `BUSY = 1` a presented command is held, and no register changes; the step is the serializer's. -/
def Obligations.CommandsAreHeldWhileBusy : Prop :=
  ∀ s : State, s.busy = true → nextTurn s = .core →
    ∃ t, step s = .next t ∧ t.cmds = s.cmds ∧ t.sr = s.sr ∧ t.result = s.result

/-- R122, R136 (the idle step itself is the model's, log 17): once a run has ended, the core's step changes nothing but the
schedule, and no step but `rst` changes what R136 observes or leaves the ended states. -/
def Obligations.AnEndedRunStays : Prop :=
  ∀ s : State, s.ended →
    (nextTurn s = .core → step s = .next { s with turns := s.turns.tail }) ∧
    (∀ t, step s = .next t → nextTurn s ≠ .rst → t.ended ∧ t.observed = s.observed)

/-- R109, R132, R40: the only stops are a SENDBUF that reads a host byte that does not exist, a host write to such a byte (log 12),
and, under the refusing policy only, the acceptance of a reserved word on the port (log 9). -/
def Obligations.TheOnlyStops : Prop :=
  ∀ s : State,
    (∀ f, step s = .fault f →
      (f = .sendbufBeyondHostBuffer ∧ ∃ cnt r, s.accepts (.sendbuf cnt r) ∧
        8 ≤ cnt.toNat ∧ s.params.hbSize.val < cnt.toNat) ∨
      (f = .hostWriteBeyondHostBuffer ∧ ∃ i b, nextTurn s = .writeBuffer i b ∧ s.params.hbSize.val ≤ i.toNat)) ∧
    (∀ r, step s = .refused r → s.params.reserved = .refuse ∧ s.busy = false ∧ nextTurn s = .core ∧
      ∃ w ws, s.cmds = w :: ws ∧ r = .reservedWord w ∧ ¬(rsv0 w = 0#4 ∧ rsv1 w = 0#16))

/-! ### State Register commands -/

/-- R68: RESET, from any state; twice is once. -/
def Obligations.ResetWritesTheKnownGoodDefault : Prop :=
  ∀ s : State, ∃ t, exec .reset s = .next t ∧
    t = { s with sr := ⟨0x00, 0x00, s.params.ri2, s.params.ri3, 0x00, s.params.ri5, s.params.ri6, s.params.ri7⟩ } ∧
    exec .reset t = .next t ∧ encode .reset = 0x0000000000000000

/-- R69: SETPWR writes bit 3 of byte 0, nonzero is On, nothing else changes; a fresh checksum becomes stale if the bit
changes. -/
def Obligations.SetpwrWritesBitThree : Prop :=
  ∀ (s : State) (imm : Byte), ∃ t, exec (.setpwr imm) s = .next t ∧
    t = { s with sr := { s.sr with b0 := t.sr.b0 } } ∧
    t.sr.b0.getLsbD 3 = decide (imm.toNat ≠ 0) ∧
    (∀ k, k ≠ 3 → t.sr.b0.getLsbD k = s.sr.b0.getLsbD k) ∧
    (∀ v, t.sr.b0.getLsbD 3 ≠ s.sr.b0.getLsbD 3 → ¬stale v s.sr → stale v t.sr) ∧
    (encode (.setpwr imm)).toNat / 2 ^ 60 = 0x1

/-- R71: SETMODE writes bits 2..0 of byte 0, a code above 4 as 0. -/
def Obligations.SetmodeCoercesToAuto : Prop :=
  ∀ (s : State) (imm : Byte), ∃ t, exec (.setmode imm) s = .next t ∧
    t = { s with sr := { s.sr with b0 := t.sr.b0 } } ∧
    t.sr.b0.toNat % 8 = (if imm.toNat ≤ 4 then imm.toNat else 0) ∧
    t.sr.b0.toNat / 8 = s.sr.b0.toNat / 8 ∧
    (encode (.setmode imm)).toNat / 2 ^ 60 = 0x3

/-- R73: SETFAN writes bits 7..4 of byte 0, a code above 3 as 3. -/
def Obligations.SetfanClampsToHigh : Prop :=
  ∀ (s : State) (imm : Byte), ∃ t, exec (.setfan imm) s = .next t ∧
    t = { s with sr := { s.sr with b0 := t.sr.b0 } } ∧
    t.sr.b0.toNat / 16 = min imm.toNat 3 ∧
    t.sr.b0.toNat % 16 = s.sr.b0.toNat % 16 ∧
    (encode (.setfan imm)).toNat / 2 ^ 60 = 0x5

/-- R75: SETTEMP writes byte 1, the temperature clamped to 16..30, less 16. -/
def Obligations.SettempClampsAndOffsets : Prop :=
  ∀ (s : State) (imm : Byte), ∃ t, exec (.settemp imm) s = .next t ∧
    t = { s with sr := { s.sr with b1 := t.sr.b1 } } ∧
    t.sr.b1.toNat + 16 = min (max imm.toNat 16) 30 ∧
    (encode (.settemp imm)).toNat / 2 ^ 60 = 0x7

/-- R77: SETVANE writes byte 4, a code above 6 as 0. That the checksum is as before, R77 marks as derived from R80. -/
def Obligations.SetvaneCoercesToAuto : Prop :=
  ∀ (s : State) (imm : Byte), ∃ t, exec (.setvane imm) s = .next t ∧
    t = { s with sr := { s.sr with b4 := t.sr.b4 } } ∧
    t.sr.b4.toNat = (if imm.toNat ≤ 6 then imm.toNat else 0) ∧
    (∀ v, csum v t.sr = csum v s.sr) ∧
    (encode (.setvane imm)).toNat / 2 ^ 60 = 0x9

/-- R70, R72, R74, R76, R78: each getter writes its field, zero-extended, into `RESULT` and changes nothing else; in a state
whose codes are legal, the values are in the ranges the rules give (which the spec marks as derived); GETTEMP after SETTEMP of 16
to 30 gives that value back. -/
def Obligations.GettersReadTheirField : Prop :=
  ∀ s : State,
    (∃ t, exec .getpwr s = .next t ∧ t = { s with result := t.result } ∧
      t.result.toNat = s.sr.b0.toNat / 8 % 2 ∧ encode .getpwr = 0x2000000000000000) ∧
    (∃ t, exec .getmode s = .next t ∧ t = { s with result := t.result } ∧
      t.result.toNat = s.sr.b0.toNat % 8 ∧ (s.sr.legal → t.result.toNat ≤ 4) ∧
      encode .getmode = 0x4000000000000000) ∧
    (∃ t, exec .getfan s = .next t ∧ t = { s with result := t.result } ∧
      t.result.toNat = s.sr.b0.toNat / 16 ∧ (s.sr.legal → t.result.toNat ≤ 3) ∧
      encode .getfan = 0x6000000000000000) ∧
    (∃ t, exec .gettemp s = .next t ∧ t = { s with result := t.result } ∧
      t.result.toNat = (s.sr.b1.toNat + 16) % 256 ∧ (s.sr.legal → 16 ≤ t.result.toNat ∧ t.result.toNat ≤ 30) ∧
      (∀ x : Byte, 16 ≤ x.toNat → x.toNat ≤ 30 → ∃ u v, exec (.settemp x) s = .next u ∧ exec .gettemp u = .next v ∧
        v.result.toNat = x.toNat) ∧
      encode .gettemp = 0x8000000000000000) ∧
    (∃ t, exec .getvane s = .next t ∧ t = { s with result := t.result } ∧
      t.result.toNat = s.sr.b4.toNat ∧ (s.sr.legal → t.result.toNat ≤ 6) ∧
      encode .getvane = 0xA000000000000000)

/-- R50 with W1 to W3 (95_test_vectors.md): a getter after its setter returns what the setter made of its operand. -/
def Obligations.GetterAfterSetter : Prop :=
  ∀ (s : State) (imm : Byte),
    (∃ t u, exec (.setpwr imm) s = .next t ∧ exec .getpwr t = .next u ∧
      u.result.toNat = if imm.toNat = 0 then 0 else 1) ∧
    (∃ t u, exec (.setmode imm) s = .next t ∧ exec .getmode t = .next u ∧
      u.result.toNat = if imm.toNat ≤ 4 then imm.toNat else 0) ∧
    (∃ t u, exec (.setfan imm) s = .next t ∧ exec .getfan t = .next u ∧ u.result.toNat = min imm.toNat 3) ∧
    (∃ t u, exec (.settemp imm) s = .next t ∧ exec .gettemp t = .next u ∧
      u.result.toNat = min (max imm.toNat 16) 30) ∧
    (∃ t u, exec (.setvane imm) s = .next t ∧ exec .getvane t = .next u ∧
      u.result.toNat = if imm.toNat ≤ 6 then imm.toNat else 0)

/-- R79, R80, R81: CKSUM writes bits 7..4 of byte 7 with the sum of its variant, mod 16, and nothing else. As written, a second
CKSUM changes nothing and the sum is at most 115; with high nibbles, a second CKSUM adds the other terms again. What a second
CKSUM does the spec marks as derived (R82 from R80; R81 from itself and R79). -/
def Obligations.CksumWritesTheSum : Prop :=
  ∀ s : State, ∃ t, exec .cksum s = .next t ∧
    t = { s with sr := { s.sr with b7 := t.sr.b7 } } ∧
    t.sr.b7.toNat % 16 = s.sr.b7.toNat % 16 ∧
    encode .cksum = 0xB000000000000000 ∧
    (s.params.variant = .asWritten →
      0x0A + s.sr.b0.toNat % 16 + s.sr.b1.toNat % 16 + s.sr.b2.toNat % 16 + s.sr.b3.toNat % 16
        + s.sr.b5.toNat % 16 + s.sr.b6.toNat % 16 + s.sr.b7.toNat % 16 ≤ 115 ∧
      t.sr.b7.toNat / 16 =
        (0x0A + s.sr.b0.toNat % 16 + s.sr.b1.toNat % 16 + s.sr.b2.toNat % 16 + s.sr.b3.toNat % 16
          + s.sr.b5.toNat % 16 + s.sr.b6.toNat % 16 + s.sr.b7.toNat % 16) % 16 ∧
      exec .cksum t = .next t) ∧
    (s.params.variant = .highNibble →
      t.sr.b7.toNat / 16 =
        (0x0A + s.sr.b0.toNat % 16 + s.sr.b1.toNat % 16 + s.sr.b2.toNat % 16 + s.sr.b3.toNat % 16
          + s.sr.b5.toNat / 16 + s.sr.b6.toNat / 16 + s.sr.b7.toNat / 16) % 16 ∧
      ∃ u, exec .cksum t = .next u ∧
        u.sr.b7.toNat / 16 =
          (t.sr.b7.toNat / 16 + (0x0A + s.sr.b0.toNat % 16 + s.sr.b1.toNat % 16 + s.sr.b2.toNat % 16
            + s.sr.b3.toNat % 16 + s.sr.b5.toNat / 16 + s.sr.b6.toNat / 16) % 16) % 16)

/-- R82 (a) and (b), which the spec derives from R80: as written, the checksum depends on the low nibbles of bytes 0 to 3 and 5
to 7 only, so neither FAN nor VANE nor the checksum itself is an input. -/
def Obligations.ChecksumReadsLowNibblesOnly : Prop :=
  (∀ q r : StateReg,
    q.b0.toNat % 16 = r.b0.toNat % 16 → q.b1.toNat % 16 = r.b1.toNat % 16 → q.b2.toNat % 16 = r.b2.toNat % 16 →
    q.b3.toNat % 16 = r.b3.toNat % 16 → q.b5.toNat % 16 = r.b5.toNat % 16 → q.b6.toNat % 16 = r.b6.toNat % 16 →
    q.b7.toNat % 16 = r.b7.toNat % 16 → csum .asWritten q = csum .asWritten r) ∧
  (∀ (s : State) (imm : Byte), ∃ t u, exec (.setfan imm) s = .next t ∧ exec (.setvane imm) s = .next u ∧
    csum .asWritten t.sr = csum .asWritten s.sr ∧ csum .asWritten u.sr = csum .asWritten s.sr)

/-- R83's pseudocode, R43: RAWRD does what CKSUM does and then writes `RESULT`, byte `SR[i]` at `RESULT[63 − 8·i : 56 − 8·i]`. The
word R83's example prints for `39 08 00 00 04 00 00 B0` is not laid out so; the rule is followed (log 21). -/
def Obligations.RawrdReturnsFreshBytes : Prop :=
  ∀ s : State, ∃ t u, exec .rawrd s = .next t ∧ exec .cksum s = .next u ∧
    t = { u with result := t.result } ∧
    ∀ i (b : Byte), u.sr.bytes[i]? = some b → t.result.toNat / 2 ^ (56 - 8 * i) % 256 = b.toNat

/-- R82 (d), W5: RESET then RAWRD gives one fixed value for fixed parameters, whatever the state before. -/
def Obligations.ResetThenRawrdIsFixed : Prop :=
  ∀ p : Params, ∃ v : Word64, ∀ s : State, s.params = p →
    ∃ t u, exec .reset s = .next t ∧ exec .rawrd t = .next u ∧ u.result = v

/-- R129, which the spec derives from R80, R83 and R86: as written, CKSUM, RAWRD and SEND leave a fresh checksum; from a fresh
one and legal codes, SETPWR, SETMODE or SETTEMP that changes its field leaves a stale one; SETFAN and SETVANE leave it
as it was. -/
def Obligations.WhenTheChecksumIsStale : Prop :=
  ∀ s : State, s.params.variant = .asWritten →
    (∀ i r, i = .cksum ∨ i = .rawrd ∨ i = .send r → ∃ t, exec i s = .next t ∧ ¬stale .asWritten t.sr) ∧
    (∀ imm i, i = .setpwr imm ∨ i = .setmode imm ∨ i = .settemp imm → ∃ t, exec i s = .next t ∧
      (s.sr.legal → ¬stale .asWritten s.sr → t.sr ≠ s.sr → stale .asWritten t.sr)) ∧
    (∀ imm i, i = .setfan imm ∨ i = .setvane imm → ∃ t, exec i s = .next t ∧
      (stale .asWritten t.sr ↔ stale .asWritten s.sr))

/-- R48, which the spec derives: a command that is not a transmit command, repeated with the same operands, changes nothing more
(CKSUM and RAWRD as written only). -/
def Obligations.RegisterCommandsAreIdempotent : Prop :=
  ∀ (s : State) (i : Instr), isTransmit i = false →
    (s.params.variant = .asWritten ∨ (i ≠ .cksum ∧ i ≠ .rawrd)) →
    ∃ t, exec i s = .next t ∧ exec i t = .next t

/-- R67, R25: what the State Register commands leave alone. A getter leaves the State Register; a setter, RESET and CKSUM leave
`RESULT`; none touches `BUSY`, the serializer, the ports, the trace, or any byte of the host buffer. -/
def Obligations.RegisterCommandFrame : Prop :=
  ∀ (s t : State) (i : Instr), isTransmit i = false → exec i s = .next t →
    (isGetter i = true → t.sr = s.sr) ∧
    (isGetter i = false → i ≠ .rawrd → t.result = s.result) ∧
    t.busy = s.busy ∧ t.st = s.st ∧ t.rep = s.rep ∧ t.rmax = s.rmax ∧ t.j = s.j ∧ t.bits = s.bits ∧
    t.split = s.split ∧ t.dataIn = s.dataIn ∧ t.cmds = s.cmds ∧ t.trace = s.trace ∧ t.turns = s.turns ∧
    t.params = s.params ∧ ∀ a, Memory.read t.hb a = Memory.read s.hb a

/-! ### Transmit commands -/

/-- R85, R86, R91, R93: the acceptance of SEND is CKSUM's write, the snapshot of the eight bytes, bit 7 first, split after 32 bits,
and the first event. That `CARRIER(38)` stands in the trace in the acceptance step is the model's (log 15), and so is that `j`
keeps its value (log 22). -/
def Obligations.SendSnapshotsTheStateRegister : Prop :=
  ∀ (s : State) (r : Word16), ∃ t u, exec (.send r) s = .next t ∧ exec .cksum s = .next u ∧
    t = { u with busy := true, st := .car, rep := 0, rmax := r, bits := t.bits, split := 32,
                 trace := s.trace ++ [.carrier 38] } ∧
    t.bits.length = 64 ∧
    ∀ i k (b : Byte), k < 8 → u.sr.bytes[i]? = some b → t.bits[8 * i + k]? = some (b.getLsbD (7 - k))

/-- R85, R89: the byte-buffer guard. Below 8 nothing changes; from 8 on, with the bytes there, a burst starts; there is no upper
bound but the bytes that exist. That `CARRIER(38)` stands in the trace in the acceptance step is the model's (log 15). -/
def Obligations.SendbufGuard : Prop :=
  ∀ (s : State) (cnt r : Word16),
    (cnt.toNat ≤ 7 → exec (.sendbuf cnt r) s = .next s) ∧
    (8 ≤ cnt.toNat → cnt.toNat ≤ s.params.hbSize.val →
      ∃ t, exec (.sendbuf cnt r) s = .next t ∧ t.busy = true ∧ t.trace = s.trace ++ [.carrier 38])

/-- R85, R87, R91: the acceptance of a SENDBUF that passes its guard: the snapshot of `CNT16` host bytes, bit 7 first, split after
32 bits whatever the count; the State Register and its checksum are left alone (R130). That `CARRIER(38)` stands in the trace
in the acceptance step is the model's (log 15), and so is that `j` keeps its value (log 22). -/
def Obligations.SendbufSnapshotsTheHostBuffer : Prop :=
  ∀ (s : State) (cnt r : Word16), 8 ≤ cnt.toNat → cnt.toNat ≤ s.params.hbSize.val →
    ∃ t, exec (.sendbuf cnt r) s = .next t ∧
      t = { s with busy := true, st := .car, rep := 0, rmax := r, bits := t.bits, split := 32,
                   trace := s.trace ++ [.carrier 38] } ∧
      t.bits.length = 8 * cnt.toNat ∧
      ∀ i k, i < cnt.toNat → k < 8 → t.bits[8 * i + k]? = some ((Memory.read s.hb i).getLsbD (7 - k))

/-- R132: a SENDBUF whose count passes the guard and exceeds the bytes that exist is stuck. -/
def Obligations.SendbufBeyondTheBytesIsStuck : Prop :=
  ∀ (s : State) (cnt r : Word16), 8 ≤ cnt.toNat →
    (exec (.sendbuf cnt r) s = .fault .sendbufBeyondHostBuffer ↔ s.params.hbSize.val < cnt.toNat)

/-- R85, R90: the packed-integer guard passes exactly at `PACKED_BITS`; otherwise nothing changes. That `CARRIER(38)` stands in the
trace in the acceptance step is the model's (log 15). -/
def Obligations.SendpkdGuard : Prop :=
  ∀ (s : State) (cnt r : Word16),
    (cnt.toNat ≠ s.params.packedBits.val → exec (.sendpkd cnt r) s = .next s) ∧
    (cnt.toNat = s.params.packedBits.val →
      ∃ t, exec (.sendpkd cnt r) s = .next t ∧ t.busy = true ∧ t.trace = s.trace ++ [.carrier 38])

/-- R85, R88, R92: the acceptance of a SENDPKD that passes its guard: `DATA_IN` from bit `PACKED_BITS − 1` down, split at the
middle; the State Register and its checksum are left alone (R130). That `CARRIER(38)` stands in the trace in the acceptance
step is the model's (log 15), and so is that `j` keeps its value (log 22). -/
def Obligations.SendpkdSnapshotsDataIn : Prop :=
  ∀ (s : State) (cnt r : Word16), cnt.toNat = s.params.packedBits.val →
    ∃ t, exec (.sendpkd cnt r) s = .next t ∧
      t = { s with busy := true, st := .car, rep := 0, rmax := r, bits := t.bits, split := cnt.toNat / 2,
                   trace := s.trace ++ [.carrier 38] } ∧
      t.bits.length = cnt.toNat ∧
      ∀ k, k < cnt.toNat → t.bits[k]? = some (s.dataIn.getLsbD (cnt.toNat - 1 - k))

/-- R25, R27, R85: what a transmit command leaves alone, whether or not it starts a burst: `RESULT`, the ports, the host buffer,
the parameters, and, SEND's write of bits 7..4 of byte 7 apart, the State Register; also `j`, which the model leaves as it
was (log 22). -/
def Obligations.TransmitCommandFrame : Prop :=
  ∀ (s t : State) (i : Instr), isTransmit i = true → exec i s = .next t →
    t.result = s.result ∧ t.dataIn = s.dataIn ∧ t.cmds = s.cmds ∧ t.turns = s.turns ∧ t.params = s.params ∧
    t.j = s.j ∧ (∀ a, Memory.read t.hb a = Memory.read s.hb a) ∧
    ((∀ r, i ≠ .send r) → t.sr = s.sr) ∧
    t.sr = { s.sr with b7 := t.sr.b7 } ∧ t.sr.b7.toNat % 16 = s.sr.b7.toNat % 16

/-- R101: on the same eight bytes, SENDBUF 8 and SENDPKD 64 are the same step. -/
def Obligations.TheTwoFormsAgreeOnEightBytes : Prop :=
  ∀ (s : State) (r : Word16), s.params.packedBits.val = 64 → 8 ≤ s.params.hbSize.val →
    (∀ i, i < 8 → s.dataIn.toNat / 2 ^ (56 - 8 * i) % 256 = (Memory.read s.hb i).toNat) →
    ∃ t, exec (.sendbuf 8 r) s = .next t ∧ exec (.sendpkd 64 r) s = .next t

/-- R43, D26: `RESULT` after RAWRD, driven on `DATA_IN` and sent by SENDPKD 64, gives the bits SEND gives, in either checksum
variant. -/
def Obligations.RawrdThenSendpkdReproducesSend : Prop :=
  ∀ (s : State) (r : Word16), s.params.packedBits.val = 64 →
    ∃ a t u, exec .rawrd s = .next a ∧ exec (.sendpkd 64 r) { a with dataIn := a.result } = .next t ∧
      exec (.send r) s = .next u ∧ t.bits = u.bits ∧ t.split = u.split ∧ t.sr = u.sr ∧ t.trace = u.trace

/-! ### The serializer -/

/-- R94 to R97: the grammar in literal durations, over bits as a list: header, first half, footer `010`, gap, second half,
trailer; a burst is the 38 kHz carrier and `r + 1` repetitions. -/
def Obligations.TheGrammarIsAsWritten : Prop :=
  ∀ (l : List Bool) (k r : Nat),
    (∀ m : List Bool, bitEvents m = m.flatMap fun b => [.mark 620, .space (if b then 1600 else 540)]) ∧
    repetition l k =
      [.mark 9000, .space 4000] ++ bitEvents (l.take k) ++
      [.mark 620, .space 540, .mark 620, .space 1600, .mark 620, .space 540] ++ [.mark 620, .space 19000] ++
      bitEvents (l.drop k) ++ [.mark 620, .space 19000] ∧
    burst l k 0 = .carrier 38 :: repetition l k ∧
    burst l k (r + 1) = burst l k r ++ repetition l k

/-- R103: the transition of every phase, with the event it issues; `S[j]` where the sequence has a bit there. That each core move
is the collaborator's completion of the outstanding event is the model's (log 7), and so is that an event is recorded on
entering its phase (log 15). -/
def Obligations.SerializerTransitions : Prop :=
  ∀ (s u : State), s.busy = true → nextTurn s = .core → u = { s with turns := s.turns.tail } →
    (s.st = .car → step s = .next { u with st := .hm, trace := s.trace ++ [.mark 9000] }) ∧
    (s.st = .hm → step s = .next { u with st := .hs, trace := s.trace ++ [.space 4000] }) ∧
    (s.st = .hs → step s = .next { u with j := 0, st := if s.split > 0 then .d1m else .fm,
                                          trace := s.trace ++ [.mark 620] }) ∧
    (∀ b, s.st = .d1m → s.bits[s.j]? = some b →
      step s = .next { u with st := .d1s, trace := s.trace ++ [.space (if b then 1600 else 540)] }) ∧
    (s.st = .d1s → s.j + 1 < s.split →
      step s = .next { u with j := s.j + 1, st := .d1m, trace := s.trace ++ [.mark 620] }) ∧
    (s.st = .d1s → s.split ≤ s.j + 1 →
      step s = .next { u with j := 0, st := .fm, trace := s.trace ++ [.mark 620] }) ∧
    (s.st = .fm → s.j < 3 →
      step s = .next { u with st := .fs, trace := s.trace ++ [.space (if s.j = 1 then 1600 else 540)] }) ∧
    (s.st = .fs → s.j + 1 < 3 →
      step s = .next { u with j := s.j + 1, st := .fm, trace := s.trace ++ [.mark 620] }) ∧
    (s.st = .fs → 3 ≤ s.j + 1 → step s = .next { u with st := .gm, trace := s.trace ++ [.mark 620] }) ∧
    (s.st = .gm → step s = .next { u with st := .gs, trace := s.trace ++ [.space 19000] }) ∧
    (s.st = .gs → step s = .next { u with j := s.split, st := if s.split < s.bits.length then .d2m else .tm,
                                          trace := s.trace ++ [.mark 620] }) ∧
    (∀ b, s.st = .d2m → s.bits[s.j]? = some b →
      step s = .next { u with st := .d2s, trace := s.trace ++ [.space (if b then 1600 else 540)] }) ∧
    (s.st = .d2s → s.j + 1 < s.bits.length →
      step s = .next { u with j := s.j + 1, st := .d2m, trace := s.trace ++ [.mark 620] }) ∧
    (s.st = .d2s → s.bits.length ≤ s.j + 1 →
      step s = .next { u with st := .tm, trace := s.trace ++ [.mark 620] }) ∧
    (s.st = .tm → step s = .next { u with st := .ts, trace := s.trace ++ [.space 19000] }) ∧
    (s.st = .ts → s.rep.toNat < s.rmax.toNat →
      step s = .next { u with rep := s.rep + 1, st := .hm, trace := s.trace ++ [.mark 9000] }) ∧
    (s.st = .ts → s.rmax.toNat ≤ s.rep.toNat → step s = .next { u with st := .idle, busy := false })

/-- R95, R103, R105, R107: from the acceptance state of any burst, with the core moving, the serializer issues exactly the events
of `Burst(S, K, rmax)`, one a step, then `BUSY` is 0; nothing else of the block changes. That the collaborator completes an
event at each of the core's moves is the model's (log 7), and so is that an event is recorded on entering its phase (log 15). -/
def Obligations.SerializerIssuesExactlyTheBurst : Prop :=
  ∀ s : State, s.busy = true → s.st = .car → s.rep = 0 → s.turns = [] → s.split ≤ s.bits.length →
    ∃ t, runsTo (currentBurst s).length s t ∧
      s.trace ++ (currentBurst s).tail = t.trace ∧ t.busy = false ∧ t.st = .idle ∧
      t.sr = s.sr ∧ t.result = s.result ∧ t.hb = s.hb ∧ t.dataIn = s.dataIn ∧ t.cmds = s.cmds ∧
      ∀ n u, n < (currentBurst s).length → runsTo n s u → u.busy = true

/-- R86, R95, R96, R100, R105: an idle block with a SEND on its port: after the acceptance and one step for each of its events, the
trace has grown by exactly `Burst` of the checksummed State Register, `BUSY` is 0 again, and the checksum write stays (each
event completes: D24, log 7). -/
def Obligations.SendIssuesItsBurstAndCompletes : Prop :=
  ∀ (s : State) (w : Word64) (ws : List Word64) (r : Word16),
    s.busy = false → s.turns = [] → s.cmds = w :: ws → decodeWord w = .ok (.send r) →
    ∃ c t, exec .cksum s = .next c ∧ runsTo (1 + (1 + (r.toNat + 1) * 140)) s t ∧
      t.trace = s.trace ++ burst (byteBits c.sr.bytes) 32 r.toNat ∧
      t.busy = false ∧ t.sr = c.sr ∧ t.result = s.result ∧ t.cmds = ws

/-- R100, which the spec derives from R95 and R96: how many events a repetition and a burst have. -/
def Obligations.EventCounts : Prop :=
  ∀ (l : List Bool) (k r : Nat), k ≤ l.length →
    (repetition l k).length = 2 * l.length + 12 ∧
    (burst l k r).length = 1 + (r + 1) * (2 * l.length + 12)

/-- R135 (informative, which the spec derives): the nominal duration of one repetition, and of a burst. -/
def Obligations.NominalDuration : Prop :=
  ∀ (l : List Bool) (k r : Nat), k ≤ l.length →
    nominal (repetition l k) = 56780 + 1160 * l.length + 1060 * l.count true ∧
    nominal (burst l k r) = (r + 1) * (56780 + 1160 * l.length + 1060 * l.count true)

/-- R99, R98, R119: a step issues at most one event, only on the core's turn, and only with a duration or frequency of the fixed
set. -/
def Obligations.AtMostOneLegalEventPerStep : Prop :=
  ∀ s t : State, step s = .next t →
    t.trace = s.trace ∨
    (nextTurn s = .core ∧ ∃ e, t.trace = s.trace ++ [e] ∧
      (e = .carrier 38 ∨ e = .mark 9000 ∨ e = .mark 620 ∨ e = .space 4000 ∨ e = .space 1600 ∨ e = .space 540 ∨
        e = .space 19000))

/-- R51, R106: during a burst, what the host does to `HB` and `DATA_IN`, or any other contents of the State Register, changes
neither the event a step issues nor where the serializer goes. -/
def Obligations.BurstIsFixedAtAcceptance : Prop :=
  ∀ (s t : State) (r : StateReg) (m : Memory) (d : Word64), s.busy = true → nextTurn s = .core → step s = .next t →
    step { s with sr := r, hb := m, dataIn := d } = .next { t with sr := r, hb := m, dataIn := d }

/-- R28, R105: `BUSY` rises only at the acceptance of a transmit command, and falls only at the completion of the trailing space
of the last repetition, or by `rst` (R125). -/
def Obligations.WhenBusyChanges : Prop :=
  ∀ s t : State, step s = .next t →
    (s.busy = false → t.busy = true → t.st = .car ∧ ∃ i, s.accepts i ∧ isTransmit i = true) ∧
    (s.busy = true → t.busy = false →
      nextTurn s = .rst ∨ (nextTurn s = .core ∧ s.st = .ts ∧ s.rmax.toNat ≤ s.rep.toNat ∧ t.st = .idle))

/-! ### Reset and the host's moves -/

/-- R123, R114: `rst` writes the State Register as RESET does, clears `RESULT`, `BUSY` and `st`, takes no command and issues no
event, whatever the state and whatever else is pending. That it leaves the host's inputs and the trace alone is the
model's (log 16). -/
def Obligations.RstResetsTheBlock : Prop :=
  ∀ s : State, nextTurn s = .rst → ∃ t, step s = .next t ∧
    t.sr = ⟨0x00, 0x00, s.params.ri2, s.params.ri3, 0x00, s.params.ri5, s.params.ri6, s.params.ri7⟩ ∧
    t.result = 0 ∧ t.busy = false ∧ t.st = .idle ∧ t.cmds = s.cmds ∧ t.trace = s.trace ∧
    t.hb = s.hb ∧ t.dataIn = s.dataIn

/-- R125: `rst` during a burst ends it: with no command presented, no event is issued after it, however long one waits (the idle
steps are the model's, log 17). -/
def Obligations.RstAbandonsTheBurst : Prop :=
  ∀ (s : State) (n : Nat), s.turns = [.rst] → s.cmds = [] →
    ∃ t, runsTo (n + 1) s t ∧ t.trace = s.trace ∧ t.busy = false

/-- R35: the values the spec gives for reset. -/
def Obligations.ResetValues : Prop :=
  State.reset.sr.b0 = 0x00 ∧ State.reset.sr.b1 = 0x00 ∧ State.reset.sr.b2 = State.reset.params.ri2 ∧
  State.reset.sr.b3 = State.reset.params.ri3 ∧ State.reset.sr.b4 = 0x00 ∧
  State.reset.sr.b5 = State.reset.params.ri5 ∧ State.reset.sr.b6 = State.reset.params.ri6 ∧
  State.reset.sr.b7 = State.reset.params.ri7 ∧ State.reset.result = 0 ∧ State.reset.busy = false ∧
  State.reset.st = .idle

/-- R40, R137: a host write to a byte that exists is what is read there afterwards; every other byte, and everything but the
buffer, is as before. The buffer is canonical, as the invariant has it. -/
def Obligations.HostWriteIsReadBack : Prop :=
  ∀ (s : State) (i : Word16) (b : Byte),
    Memory.wf s.hb → nextTurn s = .writeBuffer i b → i.toNat < s.params.hbSize.val →
    ∃ t, step s = .next t ∧ memRead t i.toNat = some b ∧ (∀ a, a ≠ i.toNat → memRead t a = memRead s a) ∧
      t = { s with hb := t.hb, turns := s.turns.tail }

/-- R29, R30, R137: driving `DATA_IN` and presenting a word change nothing but that input. -/
def Obligations.HostInputsChangeOnlyThemselves : Prop :=
  ∀ (s : State) (d w : Word64),
    (nextTurn s = .driveData d → step s = .next { s with dataIn := d, turns := s.turns.tail }) ∧
    (nextTurn s = .present w → step s = .next { s with cmds := s.cmds ++ [w], turns := s.turns.tail })

/-! ### Rules of the whole machine -/

/-- The invariant (R26, R133, R28, R103, R104, R40, R99) is kept by every step, and no step changes the parameters. -/
def Obligations.StepKeepsTheInvariant : Prop :=
  ∀ s t : State, s.Inv → step s = .next t → t.Inv ∧ t.params = s.params

/-- The invariant holds at reset. -/
def Obligations.InvariantHoldsAtReset : Prop := State.reset.Inv

/-- R21, R24, R133: bytes 2, 3, 5, 6 and the low nibble of byte 7 change only by `rst` or a RESET command. -/
def Obligations.ReservedBytesChangeOnlyAtReset : Prop :=
  ∀ s t : State, step s = .next t → nextTurn s ≠ .rst → ¬s.accepts .reset →
    t.sr.b2 = s.sr.b2 ∧ t.sr.b3 = s.sr.b3 ∧ t.sr.b5 = s.sr.b5 ∧ t.sr.b6 = s.sr.b6 ∧
    t.sr.b7.toNat % 16 = s.sr.b7.toNat % 16

/-- R27: only `rst`, a getter and RAWRD change `RESULT`. -/
def Obligations.WhoWritesResult : Prop :=
  ∀ s t : State, step s = .next t → t.result ≠ s.result →
    nextTurn s = .rst ∨ ∃ i, s.accepts i ∧ (isGetter i = true ∨ i = .rawrd)

/-! ### The end of a run -/

/-- R31, R136: commands are accepted one at a time in the order the host issues them. A step either leaves what is left of the
host program as it is, or takes its first word, from the port, while `BUSY = 0`. (What is left is the port and the turns
that present, log 6, log 8.) -/
def Obligations.CommandsAreTakenInOrder : Prop :=
  ∀ s t : State, step s = .next t →
    t.pending = s.pending ∨
    (s.busy = false ∧ nextTurn s = .core ∧ ∃ w ws, s.cmds = w :: ws ∧ s.pending = w :: t.pending)

/-- R31, R136: a program of register commands on the port of an idle block ends after one step a word, with no event; the
schedule is empty, so that the core makes every move (log 6). -/
def Obligations.ARegisterProgramEndsAfterItsWords : Prop :=
  ∀ s : State, s.busy = false → s.turns = [] →
    (∀ w ∈ s.cmds, ∃ i, decodeWord w = .ok i ∧ isTransmit i = false) →
    ∃ t, runEnds s.cmds.length s t ∧ t.trace = s.trace

/-- R105, R136: the run of a program that is one SEND ends exactly when its burst is complete, with the outcome R136 observes: the
checksummed State Register, `RESULT` as it was, and the trace grown by the burst (each event completes: D24, log 7; the
core makes every move, log 6). -/
def Obligations.ASendRunEndsWithItsBurst : Prop :=
  ∀ (s : State) (w : Word64) (r : Word16),
    s.busy = false → s.turns = [] → s.cmds = [w] → decodeWord w = .ok (.send r) →
    ∃ c t, exec .cksum s = .next c ∧ runEnds (1 + (1 + (r.toNat + 1) * 140)) s t ∧
      t.observed = (c.sr, s.result, s.trace ++ burst (byteBits c.sr.bytes) 32 r.toNat)

/-! ### Source text -/

/-- R64, R65: every mnemonic, every symbolic value and every pseudo-instruction as a source line, with decimal and `0x` operands,
a comma between two of them and `;` before a comment; each line's word. A line with an operand out of its range is an
assembler error, and so is the program that holds it. Where the blanks may stand is the model's (log 19). -/
def Obligations.SourceLinesAssemble : Prop :=
  assembleLines ["RESET".toList, "GETPWR".toList, "GETMODE".toList, "GETFAN".toList, "GETTEMP".toList, "GETVANE".toList,
      "CKSUM".toList, "RAWRD".toList] =
    some [0x0000000000000000, 0x2000000000000000, 0x4000000000000000, 0x6000000000000000, 0x8000000000000000,
      0xA000000000000000, 0xB000000000000000, 0xC000000000000000] ∧
  assembleLines ["SETPWR OFF".toList, "SETPWR ON".toList, "SETMODE AUTO".toList, "SETMODE COOL".toList,
      "SETMODE DRY".toList, "SETMODE FAN".toList, "SETMODE HEAT".toList] =
    some [0x1000000000000000, 0x1001000000000000, 0x3000000000000000, 0x3001000000000000, 0x3002000000000000,
      0x3003000000000000, 0x3004000000000000] ∧
  assembleLines ["SETFAN AUTO".toList, "SETFAN LOW".toList, "SETFAN MED".toList, "SETFAN HIGH".toList] =
    some [0x5000000000000000, 0x5001000000000000, 0x5002000000000000, 0x5003000000000000] ∧
  assembleLines ["SETVANE AUTO".toList, "SETVANE SWING".toList, "SETVANE UP".toList, "SETVANE MIDUP".toList,
      "SETVANE MIDDLE".toList, "SETVANE MIDDOWN".toList, "SETVANE DOWN".toList] =
    some [0x9000000000000000, 0x9001000000000000, 0x9002000000000000, 0x9003000000000000, 0x9004000000000000,
      0x9005000000000000, 0x9006000000000000] ∧
  assembleLines ["SETPWR 255".toList, "SETMODE 0xFF".toList, "SETFAN 200".toList, "SETTEMP 0x18 ; 24 degrees".toList,
      "SETVANE 7".toList] =
    some [0x10FF000000000000, 0x30FF000000000000, 0x50C8000000000000, 0x7018000000000000, 0x9007000000000000] ∧
  assembleLines ["SEND 2".toList, "SENDBUF 9, 3".toList, "SENDPKD 64, 0xFFFF".toList, "; nothing".toList] =
    some [0xD000000000020000, 0xE000000900030000, 0xF0000040FFFF0000] ∧
  assembleLines ["POWERON".toList, "POWEROFF".toList, "SEND".toList, "SENDSTATE 1".toList, "SENDPKD64 1".toList] =
    some [0x1001000000000000, 0x1000000000000000, 0xD000000000000000, 0xE000000800010000, 0xF000004000010000] ∧
  assembleLines ["RESET".toList, "SETTEMP 256".toList] = none ∧
  assembleLines ["SETMODE 0x100".toList] = none ∧
  assembleLines ["SEND 65536".toList] = none ∧
  assembleLines ["SENDBUF 65536, 0".toList] = none ∧
  assembleLines ["SENDPKD 64, 65536".toList] = none
end

