-- ==== Sys2Proof/Laws/Fields.lean ====
section
/-! SUPPORT. The State Register's fields as numbers: what each reader gives, what each writer leaves, what each setter makes of
its operand, and the checksum as a sum. -/

namespace Sys2Proof.Machine

/-- Concatenation as arithmetic. -/
theorem toNat_append_add {m n : Nat} (x : BitVec m) (y : BitVec n) :
    (x ++ y).toNat = x.toNat * 2 ^ n + y.toNat := by
  rw [BitVec.toNat_append, ← Nat.shiftLeft_add_eq_or_of_lt y.isLt, Nat.shiftLeft_eq]

/-- A field as arithmetic. -/
theorem toNat_extract {n : Nat} (x : BitVec n) (lo len : Nat) :
    (x.extractLsb' lo len).toNat = x.toNat / 2 ^ lo % 2 ^ len := by
  rw [BitVec.extractLsb'_toNat, Nat.shiftRight_eq_div_pow]

@[simp] theorem lowNibble_toNat (b : Byte) : (lowNibble b).toNat = b.toNat % 16 := by
  simp [lowNibble]

@[simp] theorem highNibble_toNat (b : Byte) : (highNibble b).toNat = b.toNat / 16 := by
  have := b.isLt
  simp only [highNibble, toNat_extract]
  omega

theorem and_nibble_toNat (b : Byte) : (b &&& 0x0F).toNat = b.toNat % 16 := by
  rw [BitVec.toNat_and]
  exact Nat.and_two_pow_sub_one_eq_mod b.toNat 4

namespace StateReg

@[simp] theorem mode_toNat (r : StateReg) : r.mode.toNat = r.b0.toNat % 8 := by
  simp [mode]

@[simp] theorem power_toNat (r : StateReg) : r.power.toNat = r.b0.toNat / 8 % 2 := by
  simp only [power, toNat_extract]
  rfl

@[simp] theorem fan_toNat (r : StateReg) : r.fan.toNat = r.b0.toNat / 16 := by simp [fan]

@[simp] theorem checksum_toNat (r : StateReg) : r.checksum.toNat = r.b7.toNat / 16 := by simp [checksum]

/-- What MODE's writer makes of byte 0. -/
theorem setMode_b0 (r : StateReg) (m : BitVec 3) :
    (r.setMode m).b0.toNat = r.b0.toNat / 8 * 8 + m.toNat := by
  have := r.b0.isLt
  simp only [setMode, toNat_append_add, toNat_extract]
  omega

/-- What POWER's writer makes of byte 0. -/
theorem setPower_b0 (r : StateReg) (p : BitVec 1) :
    (r.setPower p).b0.toNat = r.b0.toNat / 16 * 16 + p.toNat * 8 + r.b0.toNat % 8 := by
  have := r.b0.isLt
  simp only [setPower, toNat_append_add, toNat_extract]
  omega

/-- What FAN's writer makes of byte 0. -/
theorem setFan_b0 (r : StateReg) (f : BitVec 4) :
    (r.setFan f).b0.toNat = f.toNat * 16 + r.b0.toNat % 16 := by
  simp only [setFan, toNat_append_add, lowNibble_toNat, Nat.reducePow]

/-- What CHECKSUM's writer makes of byte 7. -/
theorem setChecksum_b7 (r : StateReg) (c : BitVec 4) :
    (r.setChecksum c).b7.toNat = c.toNat * 16 + r.b7.toNat % 16 := by
  simp only [setChecksum, toNat_append_add, lowNibble_toNat, Nat.reducePow]

end StateReg

theorem powerValue_toNat (imm : Byte) : (powerValue imm).toNat = if imm.toNat = 0 then 0 else 1 := by
  unfold powerValue
  by_cases h : imm = 0
  · rw [h]
    rfl
  · have h' : imm.toNat ≠ 0 := fun h' => h (BitVec.eq_of_toNat_eq h')
    rw [if_neg h, if_neg h']
    rfl

theorem modeValue_toNat (imm : Byte) : (modeValue imm).toNat = if imm.toNat ≤ 4 then imm.toNat else 0 := by
  unfold modeValue
  split_ifs with h
  · simp only [toNat_extract]
    omega
  · rfl

theorem fanValue_toNat (imm : Byte) : (fanValue imm).toNat = min imm.toNat 3 := by
  simp only [fanValue, BitVec.toNat_ofNat]
  omega

theorem tempValue_toNat (imm : Byte) : (tempValue imm).toNat = min (max imm.toNat 16) 30 - 16 := by
  simp only [tempValue, BitVec.toNat_ofNat]
  omega

theorem vaneValue_toNat (imm : Byte) : (vaneValue imm).toNat = if imm.toNat ≤ 6 then imm.toNat else 0 := by
  unfold vaneValue
  split_ifs <;> rfl

/-- The checksum as written, as a number (R80). -/
theorem csumAsWritten_toNat (r : StateReg) :
    (csum .asWritten r).toNat = (0x0A + r.b0.toNat % 16 + r.b1.toNat % 16 + r.b2.toNat % 16 + r.b3.toNat % 16
      + r.b5.toNat % 16 + r.b6.toNat % 16 + r.b7.toNat % 16) % 16 := by
  simp only [csum, csumAsWritten, BitVec.toNat_ofNat, lowNibble_toNat, and_nibble_toNat]

/-- The checksum of high nibbles, as a number (R81). -/
theorem csumHighNibble_toNat (r : StateReg) :
    (csum .highNibble r).toNat = (0x0A + r.b0.toNat % 16 + r.b1.toNat % 16 + r.b2.toNat % 16 + r.b3.toNat % 16
      + r.b5.toNat / 16 + r.b6.toNat / 16 + r.b7.toNat / 16) % 16 := by
  simp only [csum, csumHighNibble, BitVec.toNat_ofNat, lowNibble_toNat, highNibble_toNat]

/-- A register whose listed nibbles agree has the same checksum, in either variant. -/
theorem csum_congr (v : ChecksumVariant) (q r : StateReg) (h0 : q.b0.toNat % 16 = r.b0.toNat % 16) (h1 : q.b1 = r.b1)
    (h2 : q.b2 = r.b2) (h3 : q.b3 = r.b3) (h5 : q.b5 = r.b5) (h6 : q.b6 = r.b6) (h7 : q.b7 = r.b7) :
    csum v q = csum v r := by
  apply BitVec.eq_of_toNat_eq
  cases v
  · rw [csumAsWritten_toNat, csumAsWritten_toNat, h0, h1, h2, h3, h5, h6, h7]
  · rw [csumHighNibble_toNat, csumHighNibble_toNat, h0, h1, h2, h3, h5, h6, h7]

end Sys2Proof.Machine
end

