-- ==== Sys2Proof/Laws/Decode.lean ====
section
/-! SUPPORT. The decoder and the encoder, field by field. -/

namespace Sys2Proof

open Machine (toNat_append_add toNat_extract)

/-- A packed word as a number (R53). -/
theorem packWord_toNat (o : BitVec 4) (imm : Byte) (cnt rep : Word16) :
    (packWord o imm cnt rep).toNat =
      o.toNat * 2 ^ 60 + imm.toNat * 2 ^ 48 + cnt.toNat * 2 ^ 32 + rep.toNat * 2 ^ 16 := by
  simp only [packWord, toNat_append_add, BitVec.toNat_ofNat]
  omega

@[simp] theorem opc_packWord (o : BitVec 4) (imm : Byte) (cnt rep : Word16) : opc (packWord o imm cnt rep) = o := by
  apply BitVec.eq_of_toNat_eq
  simp only [opc, toNat_extract, packWord_toNat]
  omega

@[simp] theorem rsv0_packWord (o : BitVec 4) (imm : Byte) (cnt rep : Word16) :
    rsv0 (packWord o imm cnt rep) = 0#4 := by
  apply BitVec.eq_of_toNat_eq
  simp only [rsv0, toNat_extract, packWord_toNat, BitVec.toNat_ofNat]
  omega

@[simp] theorem rsv1_packWord (o : BitVec 4) (imm : Byte) (cnt rep : Word16) :
    rsv1 (packWord o imm cnt rep) = 0#16 := by
  apply BitVec.eq_of_toNat_eq
  simp only [rsv1, toNat_extract, packWord_toNat, BitVec.toNat_ofNat]
  omega

@[simp] theorem imm8_packWord (o : BitVec 4) (imm : Byte) (cnt rep : Word16) :
    imm8 (packWord o imm cnt rep) = imm := by
  apply BitVec.eq_of_toNat_eq
  simp only [imm8, toNat_extract, packWord_toNat]
  omega

@[simp] theorem cnt16_packWord (o : BitVec 4) (imm : Byte) (cnt rep : Word16) :
    cnt16 (packWord o imm cnt rep) = cnt := by
  apply BitVec.eq_of_toNat_eq
  simp only [cnt16, toNat_extract, packWord_toNat]
  omega

@[simp] theorem rep16_packWord (o : BitVec 4) (imm : Byte) (cnt rep : Word16) :
    rep16 (packWord o imm cnt rep) = rep := by
  apply BitVec.eq_of_toNat_eq
  simp only [rep16, toNat_extract, packWord_toNat]
  omega

/-- What a decoded word is: not reserved, with an opcode of the table. -/
theorem decodeWord_ok {w : Word64} {i : Instr} (h : decodeWord w = .ok i) :
    rsv0 w = 0#4 ∧ rsv1 w = 0#16 ∧ decodeOpcode w = .ok i := by
  unfold decodeWord at h
  split_ifs at h with h0 h1
  exact ⟨by simpa using h0, by simpa using h1, h⟩

/-- A word whose reserved fields are 0 is decoded by its opcode. -/
theorem decodeWord_of_wellFormed {w : Word64} (h : wellFormedWord w) : decodeWord w = decodeOpcode w := by
  simp [decodeWord, h.1, h.2]

/-- A reserved word is rejected (R61). -/
theorem decodeWord_reserved {w : Word64} (h : ¬wellFormedWord w) : ∃ e, decodeWord w = .error e := by
  unfold decodeWord
  split_ifs with h0 h1
  · exact ⟨_, rfl⟩
  · exact ⟨_, rfl⟩
  · exact absurd ⟨by simpa using h0, by simpa using h1⟩ h

end Sys2Proof
end

