-- ==== Sys2Proof/Laws/Memory.lean ====
section
/-! SUPPORT. The host buffer: read after write, the canonical form, and the spec lemmas of the operations that read it. -/

namespace Sys2Proof.Machine

namespace Memory

/-- A byte whose index is below every listed one reads as unlisted. -/
theorem read_of_below (m : Memory) (a : Nat) (h : ∀ c ∈ m, a < c.1) : read m a = unlisted := by
  induction m with
  | nil => rfl
  | cons c m ih =>
    have hc : a < c.1 := h c (by simp)
    rw [read, if_neg (by omega)]
    exact ih fun d hd => h d (by simp [hd])

/-- Reading a memory whose first cell is known. -/
theorem read_cons (c : Host.Cell) (m : Memory) (x : Nat) :
    read (c :: m) x = if x = c.1 then c.2 else read m x := by
  simp only [read, eq_comm]

/-- Read after write, in a canonical memory. -/
theorem read_write (m : Memory) (a x : Nat) (b : Byte) (h : m.Pairwise fun c d => c.1 < d.1) :
    read (write m a b) x = if x = a then b else read m x := by
  induction m with
  | nil =>
    rw [write]
    by_cases hb : b = unlisted
    · rw [if_pos hb, hb]
      exact (ite_self _).symm
    · rw [if_neg hb, read_cons]
  | cons c m ih =>
    obtain ⟨hc, hm⟩ := List.pairwise_cons.1 h
    have hlow : read m c.1 = unlisted := read_of_below _ _ hc
    rw [write]
    rcases Nat.lt_trichotomy a c.1 with h1 | h1 | h1
    · rw [if_pos h1]
      by_cases hb : b = unlisted
      · have : read (c :: m) a = unlisted := by
          rw [read_cons, if_neg (by omega)]
          exact read_of_below _ _ fun d hd => Nat.lt_trans h1 (hc d hd)
        rw [if_pos hb, hb]
        by_cases hx : x = a
        · rw [if_pos hx, hx, this]
        · rw [if_neg hx]
      · rw [if_neg hb, read_cons]
    · rw [if_neg (by omega), if_pos h1, read_cons, ← h1]
      by_cases hb : b = unlisted
      · rw [if_pos hb, hb]
        by_cases hx : x = a
        · rw [if_pos hx, hx, h1, hlow]
        · rw [if_neg hx, if_neg hx]
      · rw [if_neg hb, read_cons]
        by_cases hx : x = a
        · rw [if_pos hx, if_pos hx]
        · rw [if_neg hx, if_neg hx, if_neg hx]
    · rw [if_neg (by omega), if_neg (by omega), read_cons, read_cons, ih hm]
      by_cases hx : x = a
      · rw [if_pos hx, if_pos hx, if_neg (by omega)]
      · rw [if_neg hx, if_neg hx]

/-- A write lists no index but the written one and those listed before, and no unlisted byte. -/
theorem mem_write (m : Memory) (a : Nat) (b : Byte) (c : Host.Cell) (h : c ∈ write m a b) :
    c ∈ m ∨ (c = (a, b) ∧ b ≠ unlisted) := by
  induction m with
  | nil =>
    rw [write] at h
    split_ifs at h with hb
    · exact absurd h (by simp)
    · exact .inr ⟨List.mem_singleton.1 h, hb⟩
  | cons d m ih =>
    rw [write] at h
    split_ifs at h with h1 h2 h3 h4
    · exact .inl h
    · rcases List.mem_cons.1 h with rfl | h
      · exact .inr ⟨rfl, h2⟩
      · exact .inl h
    · exact .inl (by simp [h])
    · rcases List.mem_cons.1 h with rfl | h
      · exact .inr ⟨rfl, h4⟩
      · exact .inl (by simp [h])
    · rcases List.mem_cons.1 h with rfl | h
      · exact .inl (by simp)
      · exact (ih h).imp (fun h => by simp [h]) id

/-- A write keeps the indices rising. -/
theorem write_pairwise (m : Memory) (a : Nat) (b : Byte) (h : m.Pairwise fun c d => c.1 < d.1) :
    (write m a b).Pairwise fun c d => c.1 < d.1 := by
  induction m with
  | nil =>
    rw [write]
    split_ifs <;> simp
  | cons c m ih =>
    obtain ⟨hc, hm⟩ := List.pairwise_cons.1 h
    rw [write]
    split_ifs with h1 h2 h3 h4
    · exact h
    · refine List.pairwise_cons.2 ⟨fun d hd => ?_, h⟩
      rcases List.mem_cons.1 hd with rfl | hd
      · exact h1
      · exact Nat.lt_trans h1 (hc d hd)
    · exact hm
    · exact List.pairwise_cons.2 ⟨fun d hd => by simpa [h3] using hc d hd, hm⟩
    · refine List.pairwise_cons.2 ⟨fun d hd => ?_, ih hm⟩
      rcases mem_write m a b d hd with hd | ⟨rfl, -⟩
      · exact hc d hd
      · show c.1 < a
        omega

/-- A write to a 16-bit index keeps the canonical form. -/
theorem write_wf (m : Memory) (a : Nat) (b : Byte) (ha : a < 65536) (h : wf m) : wf (write m a b) := by
  refine ⟨write_pairwise m a b h.1, fun c hc => ?_⟩
  rcases mem_write m a b c hc with hc | ⟨rfl, hb⟩
  · exact h.2 c hc
  · exact ⟨ha, hb⟩

end Memory

/-- A byte that exists. -/
theorem memRead_of_lt {s : State} {i : Nat} (h : i < s.params.hbSize.val) :
    memRead s i = some (Memory.read s.hb i) := if_pos h

/-- A byte that does not. -/
theorem memRead_of_ge {s : State} {i : Nat} (h : s.params.hbSize.val ≤ i) : memRead s i = none :=
  if_neg (Nat.not_lt.2 h)

/-- All that reading a buffer can do: every byte exists and is read, or the read has no value. -/
theorem readBuffer_eq (s : State) (n : Nat) :
    readBuffer s n = if n ≤ s.params.hbSize.val then some ((List.range n).map (Memory.read s.hb)) else none := by
  induction n with
  | zero => simp [readBuffer]
  | succ n ih =>
    unfold readBuffer at ih ⊢
    rw [List.range_succ, List.mapM_append, ih]
    by_cases h : n + 1 ≤ s.params.hbSize.val
    · rw [if_pos (by omega), if_pos h]
      simp [memRead_of_lt (s := s) (i := n) (by omega)]
    · rw [if_neg h]
      by_cases h' : n ≤ s.params.hbSize.val
      · rw [if_pos h']
        simp [memRead_of_ge (s := s) (i := n) (by omega)]
      · rw [if_neg h']
        rfl

/-- All that a host write can do. -/
theorem hostWrite_next {s t : State} {i : Word16} {b : Byte} (h : hostWrite s i b = .next t) :
    i.toNat < s.params.hbSize.val ∧ t = s.setHb (Memory.write s.hb i.toNat b) := by
  unfold hostWrite at h
  split at h
  · exact ⟨‹_›, by simpa using h.symm⟩
  · cases h

end Sys2Proof.Machine
end

