-- ==== Sys2Proof/Laws/Grammar.lean ====
section
/-! SUPPORT. Bit sequences and the grammar: lengths, and which bit stands where. -/

namespace Sys2Proof.Machine

@[simp] theorem msbFirst_length {n : Nat} (v : BitVec n) : (msbFirst v).length = n := by simp [msbFirst]

theorem byteBits_cons (b : Byte) (bs : List Byte) : byteBits (b :: bs) = msbFirst b ++ byteBits bs := by simp [byteBits]

@[simp] theorem byteBits_length (bs : List Byte) : (byteBits bs).length = 8 * bs.length := by
  induction bs with
  | nil => rfl
  | cons b bs ih =>
    rw [byteBits_cons, List.length_append, ih, msbFirst_length, List.length_cons]
    omega

@[simp] theorem packedBits_length (n : Nat) (d : Word64) : (packedBits n d).length = n := by simp [packedBits]

@[simp] theorem bitEvents_length (l : List Bool) : (bitEvents l).length = 2 * l.length := by
  induction l with
  | nil => rfl
  | cons b l ih =>
    rw [bitEvents, List.flatMap_cons, List.length_append, ← bitEvents, ih, List.length_cons]
    simp
    omega

@[simp] theorem bitEvents_nil : bitEvents [] = [] := rfl

theorem bitEvents_cons (b : Bool) (l : List Bool) :
    bitEvents (b :: l) = .mark Config.bitMark :: .space (bitSpace b) :: bitEvents l := rfl

/-- R97. -/
theorem footer_eq : footer = [false, true, false] := by decide

/-- `k` copies of a repetition, one taken off the front. -/
theorem repetitions_succ (l : List Bool) (k n : Nat) :
    repetitions l k (n + 1) = repetition l k ++ repetitions l k n := by
  simp [repetitions, List.replicate_succ]

end Sys2Proof.Machine
end

