-- ==== Sys2Proof/Laws/State.lean ====
section
/-! SUPPORT. One lemma per field per named update of State. -/

namespace Sys2Proof.Machine.State

/-! ### setSr -/

@[simp] theorem setSr_params (s : State) (r : StateReg) : (s.setSr r).params = s.params := rfl
@[simp] theorem setSr_sr (s : State) (r : StateReg) : (s.setSr r).sr = r := rfl
@[simp] theorem setSr_result (s : State) (r : StateReg) : (s.setSr r).result = s.result := rfl
@[simp] theorem setSr_busy (s : State) (r : StateReg) : (s.setSr r).busy = s.busy := rfl
@[simp] theorem setSr_st (s : State) (r : StateReg) : (s.setSr r).st = s.st := rfl
@[simp] theorem setSr_rep (s : State) (r : StateReg) : (s.setSr r).rep = s.rep := rfl
@[simp] theorem setSr_rmax (s : State) (r : StateReg) : (s.setSr r).rmax = s.rmax := rfl
@[simp] theorem setSr_j (s : State) (r : StateReg) : (s.setSr r).j = s.j := rfl
@[simp] theorem setSr_bits (s : State) (r : StateReg) : (s.setSr r).bits = s.bits := rfl
@[simp] theorem setSr_split (s : State) (r : StateReg) : (s.setSr r).split = s.split := rfl
@[simp] theorem setSr_hb (s : State) (r : StateReg) : (s.setSr r).hb = s.hb := rfl
@[simp] theorem setSr_dataIn (s : State) (r : StateReg) : (s.setSr r).dataIn = s.dataIn := rfl
@[simp] theorem setSr_cmds (s : State) (r : StateReg) : (s.setSr r).cmds = s.cmds := rfl
@[simp] theorem setSr_trace (s : State) (r : StateReg) : (s.setSr r).trace = s.trace := rfl
@[simp] theorem setSr_turns (s : State) (r : StateReg) : (s.setSr r).turns = s.turns := rfl

/-! ### setResult -/

@[simp] theorem setResult_params (s : State) (v : Word64) : (s.setResult v).params = s.params := rfl
@[simp] theorem setResult_sr (s : State) (v : Word64) : (s.setResult v).sr = s.sr := rfl
@[simp] theorem setResult_result (s : State) (v : Word64) : (s.setResult v).result = v := rfl
@[simp] theorem setResult_busy (s : State) (v : Word64) : (s.setResult v).busy = s.busy := rfl
@[simp] theorem setResult_st (s : State) (v : Word64) : (s.setResult v).st = s.st := rfl
@[simp] theorem setResult_rep (s : State) (v : Word64) : (s.setResult v).rep = s.rep := rfl
@[simp] theorem setResult_rmax (s : State) (v : Word64) : (s.setResult v).rmax = s.rmax := rfl
@[simp] theorem setResult_j (s : State) (v : Word64) : (s.setResult v).j = s.j := rfl
@[simp] theorem setResult_bits (s : State) (v : Word64) : (s.setResult v).bits = s.bits := rfl
@[simp] theorem setResult_split (s : State) (v : Word64) : (s.setResult v).split = s.split := rfl
@[simp] theorem setResult_hb (s : State) (v : Word64) : (s.setResult v).hb = s.hb := rfl
@[simp] theorem setResult_dataIn (s : State) (v : Word64) : (s.setResult v).dataIn = s.dataIn := rfl
@[simp] theorem setResult_cmds (s : State) (v : Word64) : (s.setResult v).cmds = s.cmds := rfl
@[simp] theorem setResult_trace (s : State) (v : Word64) : (s.setResult v).trace = s.trace := rfl
@[simp] theorem setResult_turns (s : State) (v : Word64) : (s.setResult v).turns = s.turns := rfl

/-! ### takeCommand -/

@[simp] theorem takeCommand_params (s : State) : (s.takeCommand).params = s.params := rfl
@[simp] theorem takeCommand_sr (s : State) : (s.takeCommand).sr = s.sr := rfl
@[simp] theorem takeCommand_result (s : State) : (s.takeCommand).result = s.result := rfl
@[simp] theorem takeCommand_busy (s : State) : (s.takeCommand).busy = s.busy := rfl
@[simp] theorem takeCommand_st (s : State) : (s.takeCommand).st = s.st := rfl
@[simp] theorem takeCommand_rep (s : State) : (s.takeCommand).rep = s.rep := rfl
@[simp] theorem takeCommand_rmax (s : State) : (s.takeCommand).rmax = s.rmax := rfl
@[simp] theorem takeCommand_j (s : State) : (s.takeCommand).j = s.j := rfl
@[simp] theorem takeCommand_bits (s : State) : (s.takeCommand).bits = s.bits := rfl
@[simp] theorem takeCommand_split (s : State) : (s.takeCommand).split = s.split := rfl
@[simp] theorem takeCommand_hb (s : State) : (s.takeCommand).hb = s.hb := rfl
@[simp] theorem takeCommand_dataIn (s : State) : (s.takeCommand).dataIn = s.dataIn := rfl
@[simp] theorem takeCommand_cmds (s : State) : (s.takeCommand).cmds = s.cmds.tail := rfl
@[simp] theorem takeCommand_trace (s : State) : (s.takeCommand).trace = s.trace := rfl
@[simp] theorem takeCommand_turns (s : State) : (s.takeCommand).turns = s.turns := rfl

/-! ### popTurn -/

@[simp] theorem popTurn_params (s : State) : (s.popTurn).params = s.params := rfl
@[simp] theorem popTurn_sr (s : State) : (s.popTurn).sr = s.sr := rfl
@[simp] theorem popTurn_result (s : State) : (s.popTurn).result = s.result := rfl
@[simp] theorem popTurn_busy (s : State) : (s.popTurn).busy = s.busy := rfl
@[simp] theorem popTurn_st (s : State) : (s.popTurn).st = s.st := rfl
@[simp] theorem popTurn_rep (s : State) : (s.popTurn).rep = s.rep := rfl
@[simp] theorem popTurn_rmax (s : State) : (s.popTurn).rmax = s.rmax := rfl
@[simp] theorem popTurn_j (s : State) : (s.popTurn).j = s.j := rfl
@[simp] theorem popTurn_bits (s : State) : (s.popTurn).bits = s.bits := rfl
@[simp] theorem popTurn_split (s : State) : (s.popTurn).split = s.split := rfl
@[simp] theorem popTurn_hb (s : State) : (s.popTurn).hb = s.hb := rfl
@[simp] theorem popTurn_dataIn (s : State) : (s.popTurn).dataIn = s.dataIn := rfl
@[simp] theorem popTurn_cmds (s : State) : (s.popTurn).cmds = s.cmds := rfl
@[simp] theorem popTurn_trace (s : State) : (s.popTurn).trace = s.trace := rfl
@[simp] theorem popTurn_turns (s : State) : (s.popTurn).turns = s.turns.tail := rfl

/-! ### setDataIn -/

@[simp] theorem setDataIn_params (s : State) (d : Word64) : (s.setDataIn d).params = s.params := rfl
@[simp] theorem setDataIn_sr (s : State) (d : Word64) : (s.setDataIn d).sr = s.sr := rfl
@[simp] theorem setDataIn_result (s : State) (d : Word64) : (s.setDataIn d).result = s.result := rfl
@[simp] theorem setDataIn_busy (s : State) (d : Word64) : (s.setDataIn d).busy = s.busy := rfl
@[simp] theorem setDataIn_st (s : State) (d : Word64) : (s.setDataIn d).st = s.st := rfl
@[simp] theorem setDataIn_rep (s : State) (d : Word64) : (s.setDataIn d).rep = s.rep := rfl
@[simp] theorem setDataIn_rmax (s : State) (d : Word64) : (s.setDataIn d).rmax = s.rmax := rfl
@[simp] theorem setDataIn_j (s : State) (d : Word64) : (s.setDataIn d).j = s.j := rfl
@[simp] theorem setDataIn_bits (s : State) (d : Word64) : (s.setDataIn d).bits = s.bits := rfl
@[simp] theorem setDataIn_split (s : State) (d : Word64) : (s.setDataIn d).split = s.split := rfl
@[simp] theorem setDataIn_hb (s : State) (d : Word64) : (s.setDataIn d).hb = s.hb := rfl
@[simp] theorem setDataIn_dataIn (s : State) (d : Word64) : (s.setDataIn d).dataIn = d := rfl
@[simp] theorem setDataIn_cmds (s : State) (d : Word64) : (s.setDataIn d).cmds = s.cmds := rfl
@[simp] theorem setDataIn_trace (s : State) (d : Word64) : (s.setDataIn d).trace = s.trace := rfl
@[simp] theorem setDataIn_turns (s : State) (d : Word64) : (s.setDataIn d).turns = s.turns := rfl

/-! ### setHb -/

@[simp] theorem setHb_params (s : State) (m : Memory) : (s.setHb m).params = s.params := rfl
@[simp] theorem setHb_sr (s : State) (m : Memory) : (s.setHb m).sr = s.sr := rfl
@[simp] theorem setHb_result (s : State) (m : Memory) : (s.setHb m).result = s.result := rfl
@[simp] theorem setHb_busy (s : State) (m : Memory) : (s.setHb m).busy = s.busy := rfl
@[simp] theorem setHb_st (s : State) (m : Memory) : (s.setHb m).st = s.st := rfl
@[simp] theorem setHb_rep (s : State) (m : Memory) : (s.setHb m).rep = s.rep := rfl
@[simp] theorem setHb_rmax (s : State) (m : Memory) : (s.setHb m).rmax = s.rmax := rfl
@[simp] theorem setHb_j (s : State) (m : Memory) : (s.setHb m).j = s.j := rfl
@[simp] theorem setHb_bits (s : State) (m : Memory) : (s.setHb m).bits = s.bits := rfl
@[simp] theorem setHb_split (s : State) (m : Memory) : (s.setHb m).split = s.split := rfl
@[simp] theorem setHb_hb (s : State) (m : Memory) : (s.setHb m).hb = m := rfl
@[simp] theorem setHb_dataIn (s : State) (m : Memory) : (s.setHb m).dataIn = s.dataIn := rfl
@[simp] theorem setHb_cmds (s : State) (m : Memory) : (s.setHb m).cmds = s.cmds := rfl
@[simp] theorem setHb_trace (s : State) (m : Memory) : (s.setHb m).trace = s.trace := rfl
@[simp] theorem setHb_turns (s : State) (m : Memory) : (s.setHb m).turns = s.turns := rfl

/-! ### presentCommand -/

@[simp] theorem presentCommand_params (s : State) (w : Word64) : (s.presentCommand w).params = s.params := rfl
@[simp] theorem presentCommand_sr (s : State) (w : Word64) : (s.presentCommand w).sr = s.sr := rfl
@[simp] theorem presentCommand_result (s : State) (w : Word64) : (s.presentCommand w).result = s.result := rfl
@[simp] theorem presentCommand_busy (s : State) (w : Word64) : (s.presentCommand w).busy = s.busy := rfl
@[simp] theorem presentCommand_st (s : State) (w : Word64) : (s.presentCommand w).st = s.st := rfl
@[simp] theorem presentCommand_rep (s : State) (w : Word64) : (s.presentCommand w).rep = s.rep := rfl
@[simp] theorem presentCommand_rmax (s : State) (w : Word64) : (s.presentCommand w).rmax = s.rmax := rfl
@[simp] theorem presentCommand_j (s : State) (w : Word64) : (s.presentCommand w).j = s.j := rfl
@[simp] theorem presentCommand_bits (s : State) (w : Word64) : (s.presentCommand w).bits = s.bits := rfl
@[simp] theorem presentCommand_split (s : State) (w : Word64) : (s.presentCommand w).split = s.split := rfl
@[simp] theorem presentCommand_hb (s : State) (w : Word64) : (s.presentCommand w).hb = s.hb := rfl
@[simp] theorem presentCommand_dataIn (s : State) (w : Word64) : (s.presentCommand w).dataIn = s.dataIn := rfl
@[simp] theorem presentCommand_cmds (s : State) (w : Word64) : (s.presentCommand w).cmds = s.cmds ++ [w] := rfl
@[simp] theorem presentCommand_trace (s : State) (w : Word64) : (s.presentCommand w).trace = s.trace := rfl
@[simp] theorem presentCommand_turns (s : State) (w : Word64) : (s.presentCommand w).turns = s.turns := rfl

/-! ### hardReset -/

@[simp] theorem hardReset_params (s : State) : (s.hardReset).params = s.params := rfl
@[simp] theorem hardReset_sr (s : State) : (s.hardReset).sr = StateReg.knownGood s.params := rfl
@[simp] theorem hardReset_result (s : State) : (s.hardReset).result = 0 := rfl
@[simp] theorem hardReset_busy (s : State) : (s.hardReset).busy = false := rfl
@[simp] theorem hardReset_st (s : State) : (s.hardReset).st = .idle := rfl
@[simp] theorem hardReset_rep (s : State) : (s.hardReset).rep = 0 := rfl
@[simp] theorem hardReset_rmax (s : State) : (s.hardReset).rmax = 0 := rfl
@[simp] theorem hardReset_j (s : State) : (s.hardReset).j = 0 := rfl
@[simp] theorem hardReset_bits (s : State) : (s.hardReset).bits = [] := rfl
@[simp] theorem hardReset_split (s : State) : (s.hardReset).split = 0 := rfl
@[simp] theorem hardReset_hb (s : State) : (s.hardReset).hb = s.hb := rfl
@[simp] theorem hardReset_dataIn (s : State) : (s.hardReset).dataIn = s.dataIn := rfl
@[simp] theorem hardReset_cmds (s : State) : (s.hardReset).cmds = s.cmds := rfl
@[simp] theorem hardReset_trace (s : State) : (s.hardReset).trace = s.trace := rfl
@[simp] theorem hardReset_turns (s : State) : (s.hardReset).turns = s.turns := rfl

/-! ### refreshChecksum -/

@[simp] theorem refreshChecksum_params (s : State) : (s.refreshChecksum).params = s.params := rfl
@[simp] theorem refreshChecksum_sr (s : State) : (s.refreshChecksum).sr = s.sr.setChecksum (csum s.params.variant s.sr) := rfl
@[simp] theorem refreshChecksum_result (s : State) : (s.refreshChecksum).result = s.result := rfl
@[simp] theorem refreshChecksum_busy (s : State) : (s.refreshChecksum).busy = s.busy := rfl
@[simp] theorem refreshChecksum_st (s : State) : (s.refreshChecksum).st = s.st := rfl
@[simp] theorem refreshChecksum_rep (s : State) : (s.refreshChecksum).rep = s.rep := rfl
@[simp] theorem refreshChecksum_rmax (s : State) : (s.refreshChecksum).rmax = s.rmax := rfl
@[simp] theorem refreshChecksum_j (s : State) : (s.refreshChecksum).j = s.j := rfl
@[simp] theorem refreshChecksum_bits (s : State) : (s.refreshChecksum).bits = s.bits := rfl
@[simp] theorem refreshChecksum_split (s : State) : (s.refreshChecksum).split = s.split := rfl
@[simp] theorem refreshChecksum_hb (s : State) : (s.refreshChecksum).hb = s.hb := rfl
@[simp] theorem refreshChecksum_dataIn (s : State) : (s.refreshChecksum).dataIn = s.dataIn := rfl
@[simp] theorem refreshChecksum_cmds (s : State) : (s.refreshChecksum).cmds = s.cmds := rfl
@[simp] theorem refreshChecksum_trace (s : State) : (s.refreshChecksum).trace = s.trace := rfl
@[simp] theorem refreshChecksum_turns (s : State) : (s.refreshChecksum).turns = s.turns := rfl

/-! ### enter -/

@[simp] theorem enter_params (s : State) (p : Phase) : (s.enter p).params = s.params := rfl
@[simp] theorem enter_sr (s : State) (p : Phase) : (s.enter p).sr = s.sr := rfl
@[simp] theorem enter_result (s : State) (p : Phase) : (s.enter p).result = s.result := rfl
@[simp] theorem enter_busy (s : State) (p : Phase) : (s.enter p).busy = s.busy := rfl
@[simp] theorem enter_st (s : State) (p : Phase) : (s.enter p).st = p := rfl
@[simp] theorem enter_rep (s : State) (p : Phase) : (s.enter p).rep = s.rep := rfl
@[simp] theorem enter_rmax (s : State) (p : Phase) : (s.enter p).rmax = s.rmax := rfl
@[simp] theorem enter_j (s : State) (p : Phase) : (s.enter p).j = s.j := rfl
@[simp] theorem enter_bits (s : State) (p : Phase) : (s.enter p).bits = s.bits := rfl
@[simp] theorem enter_split (s : State) (p : Phase) : (s.enter p).split = s.split := rfl
@[simp] theorem enter_hb (s : State) (p : Phase) : (s.enter p).hb = s.hb := rfl
@[simp] theorem enter_dataIn (s : State) (p : Phase) : (s.enter p).dataIn = s.dataIn := rfl
@[simp] theorem enter_cmds (s : State) (p : Phase) : (s.enter p).cmds = s.cmds := rfl
@[simp] theorem enter_trace (s : State) (p : Phase) : (s.enter p).trace = s.trace ++ phaseEvent s p := rfl
@[simp] theorem enter_turns (s : State) (p : Phase) : (s.enter p).turns = s.turns := rfl

/-! ### setJ -/

@[simp] theorem setJ_params (s : State) (n : Nat) : (s.setJ n).params = s.params := rfl
@[simp] theorem setJ_sr (s : State) (n : Nat) : (s.setJ n).sr = s.sr := rfl
@[simp] theorem setJ_result (s : State) (n : Nat) : (s.setJ n).result = s.result := rfl
@[simp] theorem setJ_busy (s : State) (n : Nat) : (s.setJ n).busy = s.busy := rfl
@[simp] theorem setJ_st (s : State) (n : Nat) : (s.setJ n).st = s.st := rfl
@[simp] theorem setJ_rep (s : State) (n : Nat) : (s.setJ n).rep = s.rep := rfl
@[simp] theorem setJ_rmax (s : State) (n : Nat) : (s.setJ n).rmax = s.rmax := rfl
@[simp] theorem setJ_j (s : State) (n : Nat) : (s.setJ n).j = n := rfl
@[simp] theorem setJ_bits (s : State) (n : Nat) : (s.setJ n).bits = s.bits := rfl
@[simp] theorem setJ_split (s : State) (n : Nat) : (s.setJ n).split = s.split := rfl
@[simp] theorem setJ_hb (s : State) (n : Nat) : (s.setJ n).hb = s.hb := rfl
@[simp] theorem setJ_dataIn (s : State) (n : Nat) : (s.setJ n).dataIn = s.dataIn := rfl
@[simp] theorem setJ_cmds (s : State) (n : Nat) : (s.setJ n).cmds = s.cmds := rfl
@[simp] theorem setJ_trace (s : State) (n : Nat) : (s.setJ n).trace = s.trace := rfl
@[simp] theorem setJ_turns (s : State) (n : Nat) : (s.setJ n).turns = s.turns := rfl

/-! ### nextRep -/

@[simp] theorem nextRep_params (s : State) : (s.nextRep).params = s.params := rfl
@[simp] theorem nextRep_sr (s : State) : (s.nextRep).sr = s.sr := rfl
@[simp] theorem nextRep_result (s : State) : (s.nextRep).result = s.result := rfl
@[simp] theorem nextRep_busy (s : State) : (s.nextRep).busy = s.busy := rfl
@[simp] theorem nextRep_st (s : State) : (s.nextRep).st = s.st := rfl
@[simp] theorem nextRep_rep (s : State) : (s.nextRep).rep = s.rep + 1 := rfl
@[simp] theorem nextRep_rmax (s : State) : (s.nextRep).rmax = s.rmax := rfl
@[simp] theorem nextRep_j (s : State) : (s.nextRep).j = s.j := rfl
@[simp] theorem nextRep_bits (s : State) : (s.nextRep).bits = s.bits := rfl
@[simp] theorem nextRep_split (s : State) : (s.nextRep).split = s.split := rfl
@[simp] theorem nextRep_hb (s : State) : (s.nextRep).hb = s.hb := rfl
@[simp] theorem nextRep_dataIn (s : State) : (s.nextRep).dataIn = s.dataIn := rfl
@[simp] theorem nextRep_cmds (s : State) : (s.nextRep).cmds = s.cmds := rfl
@[simp] theorem nextRep_trace (s : State) : (s.nextRep).trace = s.trace := rfl
@[simp] theorem nextRep_turns (s : State) : (s.nextRep).turns = s.turns := rfl

/-! ### finishBurst -/

@[simp] theorem finishBurst_params (s : State) : (s.finishBurst).params = s.params := rfl
@[simp] theorem finishBurst_sr (s : State) : (s.finishBurst).sr = s.sr := rfl
@[simp] theorem finishBurst_result (s : State) : (s.finishBurst).result = s.result := rfl
@[simp] theorem finishBurst_busy (s : State) : (s.finishBurst).busy = false := rfl
@[simp] theorem finishBurst_st (s : State) : (s.finishBurst).st = .idle := rfl
@[simp] theorem finishBurst_rep (s : State) : (s.finishBurst).rep = s.rep := rfl
@[simp] theorem finishBurst_rmax (s : State) : (s.finishBurst).rmax = s.rmax := rfl
@[simp] theorem finishBurst_j (s : State) : (s.finishBurst).j = s.j := rfl
@[simp] theorem finishBurst_bits (s : State) : (s.finishBurst).bits = s.bits := rfl
@[simp] theorem finishBurst_split (s : State) : (s.finishBurst).split = s.split := rfl
@[simp] theorem finishBurst_hb (s : State) : (s.finishBurst).hb = s.hb := rfl
@[simp] theorem finishBurst_dataIn (s : State) : (s.finishBurst).dataIn = s.dataIn := rfl
@[simp] theorem finishBurst_cmds (s : State) : (s.finishBurst).cmds = s.cmds := rfl
@[simp] theorem finishBurst_trace (s : State) : (s.finishBurst).trace = s.trace := rfl
@[simp] theorem finishBurst_turns (s : State) : (s.finishBurst).turns = s.turns := rfl

/-! ### startBurst -/

@[simp] theorem startBurst_params (s : State) (l : List Bool) (k : Nat) (r : Word16) : (s.startBurst l k r).params = s.params := rfl
@[simp] theorem startBurst_sr (s : State) (l : List Bool) (k : Nat) (r : Word16) : (s.startBurst l k r).sr = s.sr := rfl
@[simp] theorem startBurst_result (s : State) (l : List Bool) (k : Nat) (r : Word16) : (s.startBurst l k r).result = s.result := rfl
@[simp] theorem startBurst_busy (s : State) (l : List Bool) (k : Nat) (r : Word16) : (s.startBurst l k r).busy = true := rfl
@[simp] theorem startBurst_st (s : State) (l : List Bool) (k : Nat) (r : Word16) : (s.startBurst l k r).st = .car := rfl
@[simp] theorem startBurst_rep (s : State) (l : List Bool) (k : Nat) (r : Word16) : (s.startBurst l k r).rep = 0 := rfl
@[simp] theorem startBurst_rmax (s : State) (l : List Bool) (k : Nat) (r : Word16) : (s.startBurst l k r).rmax = r := rfl
@[simp] theorem startBurst_j (s : State) (l : List Bool) (k : Nat) (r : Word16) : (s.startBurst l k r).j = s.j := rfl
@[simp] theorem startBurst_bits (s : State) (l : List Bool) (k : Nat) (r : Word16) : (s.startBurst l k r).bits = l := rfl
@[simp] theorem startBurst_split (s : State) (l : List Bool) (k : Nat) (r : Word16) : (s.startBurst l k r).split = k := rfl
@[simp] theorem startBurst_hb (s : State) (l : List Bool) (k : Nat) (r : Word16) : (s.startBurst l k r).hb = s.hb := rfl
@[simp] theorem startBurst_dataIn (s : State) (l : List Bool) (k : Nat) (r : Word16) : (s.startBurst l k r).dataIn = s.dataIn := rfl
@[simp] theorem startBurst_cmds (s : State) (l : List Bool) (k : Nat) (r : Word16) : (s.startBurst l k r).cmds = s.cmds := rfl
@[simp] theorem startBurst_trace (s : State) (l : List Bool) (k : Nat) (r : Word16) : (s.startBurst l k r).trace = s.trace ++ [.carrier Config.carrierKHz] := rfl
@[simp] theorem startBurst_turns (s : State) (l : List Bool) (k : Nat) (r : Word16) : (s.startBurst l k r).turns = s.turns := rfl

end Sys2Proof.Machine.State
end

