-- ==== Sys2Proof/Laws/Serializer.lean ====
section
/-! SUPPORT. The serializer: what a transition leaves alone, and the one shape every transition has. -/

namespace Sys2Proof.Machine

/-- A phase issues at most one event. -/
theorem phaseEvent_length (s : State) (p : Phase) : (phaseEvent s p).length ≤ 1 := by cases p <;> simp [phaseEvent]

theorem bitSpace_cases (b : Bool) : bitSpace b = 1600 ∨ bitSpace b = 540 := by cases b <;> simp [bitSpace]

/-- Every event a phase issues is of the fixed set (R98, R99). -/
theorem phaseEvent_legal (s : State) (p : Phase) : ∀ e ∈ phaseEvent s p, e.legal := by
  intro e he
  cases p <;> simp only [phaseEvent, List.mem_singleton, List.not_mem_nil] at he <;> subst he <;>
    simp only [Event.legal, true_or, or_true]
  · rcases bitSpace_cases (bitAt s.bits s.j) with h | h <;> rw [h] <;> decide
  · rcases bitSpace_cases (bitAt footer s.j) with h | h <;> rw [h] <;> decide
  · rcases bitSpace_cases (bitAt s.bits s.j) with h | h <;> rw [h] <;> decide

/-- A bit inside a run is that bit. -/
theorem bitAt_of_lt {l : List Bool} {j : Nat} (h : j < l.length) : bitAt l j = l[j] := by simp [bitAt, h]

/-- All that a transition can do: it enters a phase, with `j` and `rep` perhaps moved before; or it ends the burst; or, in
`IDLE`, nothing. -/
theorem advance_cases (s : State) :
    (∃ p n r, s.advance = { s with j := n, rep := r, st := p, trace := s.advance.trace } ∧ p ≠ .idle ∧
      s.advance.trace = s.trace ++ phaseEvent { s with j := n, rep := r } p ∧ s.st ≠ .idle ∧
      (r = s.rep ∨ (s.rep < s.rmax ∧ r = s.rep + 1))) ∨
    (s.advance = { s with st := .idle, busy := false } ∧ s.st = .ts ∧ ¬s.rep < s.rmax) ∨
    (s.advance = s ∧ s.st = .idle) := by
  have enter (p : Phase) (n : Nat) (hp : p ≠ .idle) (hs : s.st ≠ .idle) (h : s.advance = (s.setJ n).enter p) :
      ∃ p n r, s.advance = { s with j := n, rep := r, st := p, trace := s.advance.trace } ∧ p ≠ .idle ∧
        s.advance.trace = s.trace ++ phaseEvent { s with j := n, rep := r } p ∧ s.st ≠ .idle ∧
        (r = s.rep ∨ (s.rep < s.rmax ∧ r = s.rep + 1)) :=
    ⟨p, n, s.rep, by rw [h]; rfl, hp, by rw [h]; rfl, hs, .inl rfl⟩
  cases hst : s.st with
  | idle => exact .inr (.inr ⟨by simp [State.advance, hst], rfl⟩)
  | car => exact .inl (hst ▸ enter .hm s.j nofun (by simp [hst]) (by simp only [State.advance, hst]; rfl))
  | hm => exact .inl (hst ▸ enter .hs s.j nofun (by simp [hst]) (by simp only [State.advance, hst]; rfl))
  | hs =>
    refine .inl (hst ▸ ?_)
    by_cases h : 0 < s.split
    · exact enter .d1m 0 nofun (by simp [hst]) (by simp only [State.advance, hst, if_pos h])
    · exact enter .fm 0 nofun (by simp [hst]) (by simp only [State.advance, hst, if_neg h])
  | d1m => exact .inl (hst ▸ enter .d1s s.j nofun (by simp [hst]) (by simp only [State.advance, hst]; rfl))
  | d1s =>
    refine .inl (hst ▸ ?_)
    by_cases h : s.j + 1 < s.split
    · exact enter .d1m (s.j + 1) nofun (by simp [hst]) (by simp only [State.advance, hst, if_pos h])
    · exact enter .fm 0 nofun (by simp [hst]) (by simp only [State.advance, hst, if_neg h])
  | fm => exact .inl (hst ▸ enter .fs s.j nofun (by simp [hst]) (by simp only [State.advance, hst]; rfl))
  | fs =>
    refine .inl (hst ▸ ?_)
    by_cases h : s.j + 1 < footer.length
    · exact enter .fm (s.j + 1) nofun (by simp [hst]) (by simp only [State.advance, hst, if_pos h])
    · exact enter .gm s.j nofun (by simp [hst]) (by simp only [State.advance, hst, if_neg h]; rfl)
  | gm => exact .inl (hst ▸ enter .gs s.j nofun (by simp [hst]) (by simp only [State.advance, hst]; rfl))
  | gs =>
    refine .inl (hst ▸ ?_)
    by_cases h : s.split < s.bits.length
    · exact enter .d2m s.split nofun (by simp [hst]) (by simp only [State.advance, hst, if_pos h])
    · exact enter .tm s.split nofun (by simp [hst]) (by simp only [State.advance, hst, if_neg h])
  | d2m => exact .inl (hst ▸ enter .d2s s.j nofun (by simp [hst]) (by simp only [State.advance, hst]; rfl))
  | d2s =>
    refine .inl (hst ▸ ?_)
    by_cases h : s.j + 1 < s.bits.length
    · exact enter .d2m (s.j + 1) nofun (by simp [hst]) (by simp only [State.advance, hst, if_pos h])
    · exact enter .tm s.j nofun (by simp [hst]) (by simp only [State.advance, hst, if_neg h]; rfl)
  | tm => exact .inl (hst ▸ enter .ts s.j nofun (by simp [hst]) (by simp only [State.advance, hst]; rfl))
  | ts =>
    by_cases h : s.rep < s.rmax
    · have ha : s.advance = s.nextRep.enter .hm := by simp only [State.advance, hst, if_pos h]
      exact .inl ⟨.hm, s.j, s.rep + 1, by rw [ha]; rfl, nofun, by rw [ha]; rfl, nofun, .inr ⟨h, rfl⟩⟩
    · exact .inr (.inl ⟨by simp only [State.advance, hst, if_neg h]; rfl, rfl, h⟩)

end Sys2Proof.Machine
end

