-- ==== Sys2Proof/Laws/Exec.lean ====
section
/-! SUPPORT. What a command can do, and what a step can do: the lemmas to cite instead of unfolding `exec` and `step`. -/

namespace Sys2Proof.Machine

/-- A command that is not a transmit command completes, and writes the State Register and `RESULT` at most (R67). -/
theorem exec_register (i : Instr) (s : State) (h : isTransmit i = false) :
    ∃ r v, exec i s = .next ((s.setSr r).setResult v) := by
  have writes (r : StateReg) (he : exec i s = .next (s.setSr r)) :
      ∃ r v, exec i s = .next ((s.setSr r).setResult v) := ⟨r, s.result, he⟩
  have reads (v : Word64) (he : exec i s = .next (s.setResult v)) :
      ∃ r v, exec i s = .next ((s.setSr r).setResult v) := ⟨s.sr, v, he⟩
  cases i with
  | reset | setpwr | setmode | setfan | settemp | setvane | cksum => exact writes _ rfl
  | getpwr | getmode | getfan | gettemp | getvane => exact reads _ rfl
  | rawrd => exact ⟨_, _, rfl⟩
  | send | sendbuf | sendpkd => cases h

/-- All that the start of SENDBUF can do. -/
theorem execSendbuf_eq (cnt r : Word16) (s : State) :
    execSendbuf cnt r s =
      if cnt.toNat < 8 then .next s
      else if cnt.toNat ≤ s.params.hbSize.val then
        .next (s.startBurst (byteBits ((List.range cnt.toNat).map (Memory.read s.hb))) 32 r)
      else .fault .sendbufBeyondHostBuffer := by
  unfold execSendbuf bufferGuard
  rw [readBuffer_eq]
  by_cases h : cnt.toNat < 8
  · rw [if_pos h, if_neg (show ¬Config.minBytes ≤ cnt.toNat by simpa using h)]
  · rw [if_neg h, if_pos (show Config.minBytes ≤ cnt.toNat by simpa using h)]
    by_cases h' : cnt.toNat ≤ s.params.hbSize.val
    · rw [if_pos h', if_pos h']
      rfl
    · rw [if_neg h', if_neg h']

/-- All that a transmit command can do when it goes on: nothing (its guard failed), or the start of a burst, for SEND after the
checksum's write. -/
theorem exec_transmit {i : Instr} {s t : State} (hi : isTransmit i = true) (h : exec i s = .next t) :
    t = s ∨ ∃ c l k r, t = State.startBurst c l k r ∧ (c = s ∨ (c = s.refreshChecksum ∧ i = .send r)) ∧
      k ≤ l.length ∧ l.length ≤ 8 * 65535 := by
  cases i with
  | send r =>
    refine .inr ⟨_, _, _, r, (Host.Outcome.next.inj h).symm, .inr ⟨rfl, rfl⟩, ?_, ?_⟩ <;>
      simp [StateReg.bytes, byteSplit, Config.splitBytes]
  | sendbuf cnt r =>
    have h' : execSendbuf cnt r s = .next t := h
    rw [execSendbuf_eq] at h'
    split_ifs at h' with h1 h2
    · exact .inl (Host.Outcome.next.inj h').symm
    · refine .inr ⟨_, _, _, r, (Host.Outcome.next.inj h').symm, .inl rfl, ?_, ?_⟩ <;>
        simp only [byteBits_length, List.length_map, List.length_range] <;> omega
  | sendpkd cnt r =>
    have h' : execSendpkd cnt r s = .next t := h
    unfold execSendpkd at h'
    split_ifs at h' with h1
    · refine .inr ⟨_, _, _, r, (Host.Outcome.next.inj h').symm, .inl rfl, ?_, ?_⟩ <;>
        simp only [packedBits_length] <;> have := s.params.packedBits.isLt <;> omega
    · exact .inl (Host.Outcome.next.inj h').symm
  | _ => cases hi

/-- No command touches the port or the schedule. -/
theorem exec_cmds_turns {i : Instr} {s t : State} (h : exec i s = .next t) : t.cmds = s.cmds ∧ t.turns = s.turns := by
  cases hi : isTransmit i with
  | false =>
    obtain ⟨r, v, e⟩ := exec_register i s hi
    obtain rfl := Host.Outcome.next.inj (e.symm.trans h)
    exact ⟨rfl, rfl⟩
  | true => obtain rfl | ⟨c, l, k, r, rfl, rfl | ⟨rfl, -⟩, -⟩ := exec_transmit hi h <;> exact ⟨rfl, rfl⟩

/-- The acceptance of a command, as the step performs it. -/
theorem step_of_accepts {s : State} {i : Instr} (h : s.accepts i) : step s = exec i s.popTurn.takeCommand := by
  obtain ⟨hb, ht, w, ws, hc, hd⟩ := h
  simp [step, takeTurn, ht, move, coreMove, ready, hb, hc, accept, hd]

/-- The step while a burst runs and it is the core's turn. -/
theorem step_of_busy {s : State} (hb : s.busy = true) (ht : nextTurn s = .core) : step s = .next s.popTurn.advance := by
  simp [step, takeTurn, ht, move, coreMove, ready, hb]

/-- All that a step can do when it goes on. -/
theorem step_cases {s t : State} (h : step s = .next t) :
    (∃ d, nextTurn s = .driveData d ∧ t = s.popTurn.setDataIn d) ∨
    (∃ w, nextTurn s = .present w ∧ t = s.popTurn.presentCommand w) ∨
    (∃ i b, nextTurn s = .writeBuffer i b ∧ i.toNat < s.params.hbSize.val ∧
      t = s.popTurn.setHb (Memory.write s.hb i.toNat b)) ∨
    (nextTurn s = .rst ∧ t = s.popTurn.hardReset) ∨
    (nextTurn s = .core ∧ s.busy = true ∧ t = s.popTurn.advance) ∨
    (nextTurn s = .core ∧ s.busy = false ∧ (t = s.popTurn ∨ t = s.popTurn.takeCommand)) ∨
    (∃ i, s.accepts i ∧ exec i s.popTurn.takeCommand = .next t) := by
  cases ht : nextTurn s with
  | driveData d => exact .inl ⟨d, rfl, by simpa [step, takeTurn, ht, move] using h.symm⟩
  | present w => exact .inr (.inl ⟨w, rfl, by simpa [step, takeTurn, ht, move] using h.symm⟩)
  | writeBuffer i b =>
    have h' : hostWrite s.popTurn i b = .next t := by simpa [step, takeTurn, ht, move] using h
    exact .inr (.inr (.inl ⟨i, b, rfl, hostWrite_next h'⟩))
  | rst => exact .inr (.inr (.inr (.inl ⟨rfl, by simpa [step, takeTurn, ht, move] using h.symm⟩)))
  | core =>
    refine .inr (.inr (.inr (.inr ?_)))
    cases hb : s.busy with
    | true => exact .inl ⟨rfl, rfl, (Host.Outcome.next.inj (step_of_busy hb ht ▸ h)).symm⟩
    | false =>
      cases hc : s.cmds with
      | nil =>
        exact .inr (.inl ⟨rfl, rfl, .inl (by simpa [step, takeTurn, ht, move, coreMove, ready, hb, hc] using h.symm)⟩)
      | cons w ws =>
        cases hd : decodeWord w with
        | ok i =>
          have ha : s.accepts i := ⟨hb, ht, w, ws, hc, hd⟩
          exact .inr (.inr ⟨i, ha, step_of_accepts ha ▸ h⟩)
        | error e =>
          have h' : ignoreReserved w s.popTurn.takeCommand = .next t := by
            simpa [step, takeTurn, ht, move, coreMove, ready, hb, hc, accept, hd] using h
          refine .inr (.inl ⟨rfl, rfl, .inr ?_⟩)
          unfold ignoreReserved at h'
          split at h'
          · simpa using h'.symm
          · cases h'

end Sys2Proof.Machine
end

