-- ==== Sys2Proof/Laws/PerInstr.lean ====
section
/-! SUPPORT. A fact of every instruction as syntax: its word has the `match` bits of its row of the opcode table under that
table's `mask`, which is `0xFF0000000000FFFF` for every row (R60). -/

namespace Sys2Proof.Laws.TableMatch

/-- The `match` column of the opcode table (R60). -/
def matchWord : Instr → Word64
  | .reset => 0x0000000000000000
  | .setpwr _ => 0x1000000000000000
  | .getpwr => 0x2000000000000000
  | .setmode _ => 0x3000000000000000
  | .getmode => 0x4000000000000000
  | .setfan _ => 0x5000000000000000
  | .getfan => 0x6000000000000000
  | .settemp _ => 0x7000000000000000
  | .gettemp => 0x8000000000000000
  | .setvane _ => 0x9000000000000000
  | .getvane => 0xA000000000000000
  | .cksum => 0xB000000000000000
  | .rawrd => 0xC000000000000000
  | .send _ => 0xD000000000000000
  | .sendbuf _ _ => 0xE000000000000000
  | .sendpkd _ _ => 0xF000000000000000

/-- The word of `i` under the table's mask is its row's `match`. -/
def Statement (i : Instr) : Prop := encode i &&& 0xFF0000000000FFFF = matchWord i

/-- A packed word under the mask keeps its opcode and nothing of its operands. -/
theorem packWord_masked (o : BitVec 4) (imm : Byte) (cnt rep : Word16) :
    packWord o imm cnt rep &&& 0xFF0000000000FFFF = packWord o 0 0 0 := by
  show (o ++ 0#4 ++ imm ++ cnt ++ rep ++ 0#16 : BitVec (4 + 4 + 8 + 16 + 16 + 16)) &&&
      (BitVec.allOnes 4 ++ BitVec.allOnes 4 ++ 0#8 ++ 0#16 ++ 0#16 ++ BitVec.allOnes 16) = _
  simp only [BitVec.and_append, BitVec.and_allOnes, BitVec.and_zero]
  rfl

theorem reset : Statement (.reset) :=
  (packWord_masked _ _ _ _).trans (show packWord 0x0 0 0 0 = 0x0000000000000000 by decide)
theorem setpwr (imm : Byte) : Statement (.setpwr imm) :=
  (packWord_masked _ _ _ _).trans (show packWord 0x1 0 0 0 = 0x1000000000000000 by decide)
theorem getpwr : Statement (.getpwr) :=
  (packWord_masked _ _ _ _).trans (show packWord 0x2 0 0 0 = 0x2000000000000000 by decide)
theorem setmode (imm : Byte) : Statement (.setmode imm) :=
  (packWord_masked _ _ _ _).trans (show packWord 0x3 0 0 0 = 0x3000000000000000 by decide)
theorem getmode : Statement (.getmode) :=
  (packWord_masked _ _ _ _).trans (show packWord 0x4 0 0 0 = 0x4000000000000000 by decide)
theorem setfan (imm : Byte) : Statement (.setfan imm) :=
  (packWord_masked _ _ _ _).trans (show packWord 0x5 0 0 0 = 0x5000000000000000 by decide)
theorem getfan : Statement (.getfan) :=
  (packWord_masked _ _ _ _).trans (show packWord 0x6 0 0 0 = 0x6000000000000000 by decide)
theorem settemp (imm : Byte) : Statement (.settemp imm) :=
  (packWord_masked _ _ _ _).trans (show packWord 0x7 0 0 0 = 0x7000000000000000 by decide)
theorem gettemp : Statement (.gettemp) :=
  (packWord_masked _ _ _ _).trans (show packWord 0x8 0 0 0 = 0x8000000000000000 by decide)
theorem setvane (imm : Byte) : Statement (.setvane imm) :=
  (packWord_masked _ _ _ _).trans (show packWord 0x9 0 0 0 = 0x9000000000000000 by decide)
theorem getvane : Statement (.getvane) :=
  (packWord_masked _ _ _ _).trans (show packWord 0xA 0 0 0 = 0xA000000000000000 by decide)
theorem cksum : Statement (.cksum) :=
  (packWord_masked _ _ _ _).trans (show packWord 0xB 0 0 0 = 0xB000000000000000 by decide)
theorem rawrd : Statement (.rawrd) :=
  (packWord_masked _ _ _ _).trans (show packWord 0xC 0 0 0 = 0xC000000000000000 by decide)
theorem send (r : Word16) : Statement (.send r) :=
  (packWord_masked _ _ _ _).trans (show packWord 0xD 0 0 0 = 0xD000000000000000 by decide)
theorem sendbuf (n r : Word16) : Statement (.sendbuf n r) :=
  (packWord_masked _ _ _ _).trans (show packWord 0xE 0 0 0 = 0xE000000000000000 by decide)
theorem sendpkd (n r : Word16) : Statement (.sendpkd n r) :=
  (packWord_masked _ _ _ _).trans (show packWord 0xF 0 0 0 = 0xF000000000000000 by decide)

end Sys2Proof.Laws.TableMatch
end

