-- ==== Sys2Proof/Laws/Run.lean ====
section
/-! SUPPORT. Runs: one step taken off, runs joined, runs determined, and the one end a run has. -/

namespace Sys2Proof.Machine

theorem runsTo_zero {s t : State} : runsTo 0 s t ↔ s = t := by
  constructor
  · intro h
    exact Host.Outcome.next.inj h
  · rintro rfl
    rfl

/-- What a run of `n + 1` steps does after its first step, for any machine. -/
theorem run_succ (M : Host.Core) (n : Nat) (s : M.State) :
    (∀ u, M.step s = .next u → M.run (n + 1) s = M.run n u) ∧
    (∀ r, M.step s = .fault r → M.run (n + 1) s = .fault r) ∧
    (∀ r, M.step s = .refused r → M.run (n + 1) s = .refused r) := by
  refine ⟨?_, ?_, ?_⟩ <;>
  · intro _ h
    rw [Host.Core.run, h]

/-- A run of `n + 1` steps is a step that goes on and a run of `n`. -/
theorem runsTo_succ {n : Nat} {s t : State} : runsTo (n + 1) s t ↔ ∃ u, step s = .next u ∧ runsTo n u t := by
  obtain ⟨hn, hf, hr⟩ := run_succ Sys2Proof.core n s
  unfold runsTo
  cases h : step s with
  | next u =>
    rw [hn u h]
    exact ⟨fun h => ⟨u, rfl, h⟩, fun ⟨_, hu, h⟩ => Host.Outcome.next.inj hu ▸ h⟩
  | fault r =>
    rw [hf r h]
    exact ⟨nofun, nofun⟩
  | refused r =>
    rw [hr r h]
    exact ⟨nofun, nofun⟩

theorem runsTo_one {s t : State} : runsTo 1 s t ↔ step s = .next t := by
  rw [runsTo_succ]
  exact ⟨fun ⟨u, h, hu⟩ => runsTo_zero.1 hu ▸ h, fun h => ⟨t, h, runsTo_zero.2 rfl⟩⟩

/-- Runs are joined end to end. -/
theorem runsTo_add {m n : Nat} {s t u : State} (h : runsTo m s t) (h' : runsTo n t u) : runsTo (m + n) s u := by
  induction m generalizing s with
  | zero =>
    rw [Nat.zero_add]
    exact runsTo_zero.1 h ▸ h'
  | succ m ih =>
    obtain ⟨v, hv, h⟩ := runsTo_succ.1 h
    rw [Nat.succ_add]
    exact runsTo_succ.2 ⟨v, hv, ih h⟩

/-- A run goes through where a shorter run from the same state ends. -/
theorem runsTo_through {m n : Nat} {s t u : State} (h : runsTo m s t) (h' : runsTo (m + n) s u) : runsTo n t u := by
  induction m generalizing s with
  | zero =>
    rw [Nat.zero_add] at h'
    exact runsTo_zero.1 h ▸ h'
  | succ m ih =>
    obtain ⟨v, hv, h⟩ := runsTo_succ.1 h
    rw [Nat.succ_add] at h'
    obtain ⟨w, hw, h'⟩ := runsTo_succ.1 h'
    exact ih h (Host.Outcome.next.inj (hv ▸ hw) ▸ h')

/-- A run ends at one place only (R136: "the first step"). -/
theorem runEnds_unique {m n : Nat} {s t u : State} (h : runEnds m s t) (h' : runEnds n s u) : m = n ∧ t = u := by
  obtain h1 | rfl | h1 := Nat.lt_trichotomy m n
  · exact absurd h.2.1 (h'.2.2 m t h1 h.1)
  · exact ⟨rfl, Host.Outcome.next.inj (h.1.symm.trans h'.1)⟩
  · exact absurd h'.2.1 (h.2.2 n u h1 h'.1)

/-- A run from a state that has not ended ends one step after the run from the next state does. -/
theorem runEnds_succ {n : Nat} {s t u : State} (hs : ¬s.ended) (h : step s = .next u) (h' : runEnds n u t) :
    runEnds (n + 1) s t := by
  refine ⟨runsTo_succ.2 ⟨u, h, h'.1⟩, h'.2.1, ?_⟩
  rintro (_ | m) v hm hv
  · exact runsTo_zero.1 hv ▸ hs
  · obtain ⟨x, hx, hv⟩ := runsTo_succ.1 hv
    obtain rfl := Host.Outcome.next.inj (h.symm.trans hx)
    exact h'.2.2 m v (by omega) hv

/-- A state that has ended is its own end. -/
theorem runEnds_zero {s : State} (h : s.ended) : runEnds 0 s s :=
  ⟨runsTo_zero.2 rfl, h, fun _ _ hm => absurd hm (Nat.not_lt_zero _)⟩

end Sys2Proof.Machine
end

