-- ==== Sys2Proof/Tests/Slice0.lean ====
section
/-! SUPPORT. The model's own tests: the WellFormed smoke, the decoder, one or two steps per command against the vectors and
examples of the spec (the source stands in each docstring), and for every obligation with hypotheses a state that meets
them. -/

namespace Sys2Proof.Tests

open Sys2Proof.Machine

/-! ### The states the tests start from -/

/-- The parameters (Z) of 95_test_vectors.md: every `RI` zero, nine bytes of host buffer, the defaults elsewhere. -/
def paramsZ : Params where
  ri2 := 0
  ri3 := 0
  ri5 := 0
  ri6 := 0
  ri7 := 0
  hbSize := 9
  packedBits := 64
  variant := .asWritten
  reserved := .ignore

/-- An idle block with a State Register given byte by byte; nothing presented. -/
def idle (b0 b1 b2 b3 b4 b5 b6 b7 : Byte) : State :=
  { State.reset with params := paramsZ, sr := ⟨b0, b1, b2, b3, b4, b5, b6, b7⟩ }

/-- The block after `rst` under (Z). -/
def zero : State := idle 0 0 0 0 0 0 0 0

/-- The end state of program P1 (95_test_vectors.md), with the host buffer of program P2 and its eight bytes on `DATA_IN` (as
R43 lays them out, log 21). -/
def afterP1 : State :=
  { idle 0x39 0x08 0 0 0x04 0 0 0xB0 with
    hb := [(0, 0x39), (1, 0x08), (4, 0x04), (7, 0xB0), (8, 0xAA)]
    dataIn := 0x39080000040000B0 }

/-- A block in the middle of a burst of `SEND 1` on that register. -/
def midBurst : State :=
  { afterP1 with
    busy := true
    st := .hs
    rmax := 1
    bits := byteBits [0x39, 0x08, 0, 0, 0x04, 0, 0, 0xB0]
    split := 32
    trace := [.carrier 38, .mark 9000, .space 4000] }

/-- The next state, where there is one. -/
def nextOf : Host.Outcome State Fault Refusal → Option State
  | .next s => some s
  | .fault _ => none
  | .refused _ => none

/-- The fault, where there is one. -/
def faultOf : Host.Outcome State Fault Refusal → Option Fault
  | .next _ => none
  | .fault f => some f
  | .refused _ => none

/-- The refusal, where there is one. -/
def refusalOf : Host.Outcome State Fault Refusal → Option Refusal
  | .next _ => none
  | .fault _ => none
  | .refused r => some r

/-- The State Register after one command. -/
def srAfter (i : Instr) (s : State) : Option StateReg := (nextOf (exec i s)).map State.sr

/-- `RESULT` after one command. -/
def resultAfter (i : Instr) (s : State) : Option Word64 := (nextOf (exec i s)).map State.result

/-- The length of the snapshot and the split index after one command. -/
def snapshotAfter (i : Instr) (s : State) : Option (Bool × Nat × Nat) :=
  (nextOf (exec i s)).map fun t => (t.busy, t.bits.length, t.split)

/-! ### WellFormed smoke -/

/-- R64: a temperature above 255 is an assembler error. -/
theorem test_settemp_256_ill_formed : (Stmt.settemp 256).wf = false ∧ assemble (.settemp 256) = none := by decide

/-- R64: so is a numeric setter operand above 255. -/
theorem test_setters_256_ill_formed :
    (Stmt.setpwr (.num 256)).wf = false ∧ (Stmt.setmode (.num 256)).wf = false ∧
    (Stmt.setfan (.num 256)).wf = false ∧ (Stmt.setvane (.num 256)).wf = false := by decide

/-- R64: so is a repeat count above 65535. -/
theorem test_repeat_65536_ill_formed :
    (Stmt.send 65536).wf = false ∧ (Stmt.sendbuf 8 65536).wf = false ∧ (Stmt.sendpkd 64 65536).wf = false ∧
    (Stmt.sendstate 65536).wf = false ∧ (Stmt.sendpkd64 65536).wf = false := by decide

/-- R64: so is a byte count or a bit count above 65535. -/
theorem test_count_65536_ill_formed :
    (Stmt.sendbuf 65536 0).wf = false ∧ (Stmt.sendpkd 65536 0).wf = false := by decide

/-- R61, V36, V37: a word with a reserved field that is not 0 is not well-formed. -/
theorem test_reserved_words_ill_formed :
    ¬wellFormedWord 0x0100000000000000 ∧ ¬wellFormedWord 0xD00000000000FFFF := by decide

/-! ### Decoder and assembler -/

/-- V36, V37, V39 (95_test_vectors.md): the rejection names the field. -/
theorem test_reserved_words_rejected_by_name :
    decodeWord 0x0100000000000000 = .error .rsv0NonZero ∧
    decodeWord 0xD00000000000FFFF = .error .rsv1NonZero ∧
    decodeWord 0x3109000000000000 = .error .rsv0NonZero := by decide

/-- V38 as printed has `RSV0 = 0xF` (log 20); with `RSV0 = 0` it is the GETPWR that the vector means. -/
theorem test_v38 :
    decodeWord 0x2FFFFFFFFFFF0000 = .error .rsv0NonZero ∧ decodeWord 0x20FFFFFFFFFF0000 = .ok .getpwr := by decide

/-- SENDBUF 9, 3 bit by bit from R53: OPC 1110, RSV0 0000, IMM8 0, CNT16 9, REP16 3, RSV1 0. -/
theorem test_sendbuf_bits :
    decodeWord (0b1110#4 ++ 0b0000#4 ++ 0b00000000#8 ++ 0b0000000000001001#16 ++ 0b0000000000000011#16
      ++ 0b0000000000000000#16) = .ok (.sendbuf 9 3) := by decide

/-- SETTEMP 24 bit by bit from R53. -/
theorem test_settemp_bits :
    decodeWord (0b0111#4 ++ 0b0000#4 ++ 0b00011000#8 ++ 0#48) = .ok (.settemp 24) := by decide

/-- R62: the fields SEND does not use are ignored. -/
theorem test_send_ignores_imm8_and_cnt16 : decodeWord 0xD0FFFFFF00050000 = .ok (.send 5) := by decide

/-- The table's numbering: bits at `nbits` and above are 0. -/
theorem test_decodeTableWord :
    decodeTableWord 64 0xF000004000000000 = some (.sendpkd 64 0) ∧ decodeTableWord 64 0x0100000000000000 = none := by
  decide

/-- Program P1's lines 4 and 9, and P2's line 5, with the words printed there. -/
theorem test_assembler_lines :
    assembleLines ["SETFAN HIGH".toList, "SEND 0 ; a comment".toList, "".toList, "SENDBUF 9, 0".toList] =
      some [0x5003000000000000, 0xD000000000000000, 0xE000000900000000] := by decide

/-- R64: a line with an operand out of its range, or with no mnemonic of R60, is an error. -/
theorem test_assembler_errors :
    assembleLines ["SETTEMP 256".toList] = none ∧ assembleLines ["HALT".toList] = none := by decide

/-! ### State Register commands -/

/-- R68's example, under (Z). -/
theorem test_reset : srAfter .reset afterP1 = some ⟨0, 0, 0, 0, 0, 0, 0, 0⟩ := by decide

/-- Field isolation (95_test_vectors.md): from `0x39`, SETPWR 0 gives `0x31`; and R69's example. -/
theorem test_setpwr :
    (srAfter (.setpwr 0) afterP1).map StateReg.b0 = some 0x31 ∧
    (srAfter (.setpwr 255) (idle 0x31 0 0 0 0 0 0 0)).map StateReg.b0 = some 0x39 := by decide

/-- R70's example. -/
theorem test_getpwr : resultAfter .getpwr afterP1 = some 1 := by decide

/-- V5, V6, V8 and R71's example. -/
theorem test_setmode :
    (srAfter (.setmode 4) zero).map StateReg.b0 = some 0x04 ∧ (srAfter (.setmode 5) zero).map StateReg.b0 = some 0x00 ∧
    (srAfter (.setmode 9) afterP1).map StateReg.b0 = some 0x38 := by decide

/-- R72's example. -/
theorem test_getmode : resultAfter .getmode afterP1 = some 1 := by decide

/-- V12, and field isolation: from `0x39`, SETFAN 0 gives `0x09`. -/
theorem test_setfan :
    (srAfter (.setfan 4) zero).map StateReg.b0 = some 0x30 ∧ (srAfter (.setfan 0) afterP1).map StateReg.b0 = some 0x09 := by
  decide

/-- R74's example. -/
theorem test_getfan : resultAfter .getfan afterP1 = some 3 := by decide

/-- V14, V18, V19. -/
theorem test_settemp :
    (srAfter (.settemp 0) zero).map StateReg.b1 = some 0x00 ∧ (srAfter (.settemp 31) zero).map StateReg.b1 = some 0x0E ∧
    (srAfter (.settemp 255) zero).map StateReg.b1 = some 0x0E := by decide

/-- R76's example. -/
theorem test_gettemp : resultAfter .gettemp afterP1 = some 24 := by decide

/-- V19a, V19b. -/
theorem test_setvane :
    (srAfter (.setvane 6) zero).map StateReg.b4 = some 0x06 ∧ (srAfter (.setvane 7) afterP1).map StateReg.b4 = some 0x00 := by
  decide

/-- R78's example. -/
theorem test_getvane : resultAfter .getvane afterP1 = some 4 := by decide

/-- V20, V23 and V25, as written. -/
theorem test_cksum_as_written :
    (srAfter .cksum (idle 0x39 0x08 0 0 0x04 0 0 0)).map StateReg.b7 = some 0xB0 ∧
    (srAfter .cksum (idle 0xFF 0xFF 0xFF 0xFF 0xFF 0xFF 0xFF 0xFF)).map StateReg.b7 = some 0x3F ∧
    (srAfter .cksum (idle 0x14 0x05 0x12 0x34 0x06 0x56 0x78 0x9A)).map StateReg.b7 = some 0x1A := by decide

/-- V24, V25 and V26, high nibbles. -/
theorem test_cksum_high_nibble :
    csum .highNibble ⟨0x39, 0x08, 0x20, 0x50, 0x04, 0x20, 0x00, 0x50⟩ = 0x2 ∧
    csum .highNibble ⟨0x14, 0x05, 0x12, 0x34, 0x06, 0x56, 0x78, 0x9A⟩ = 0xE ∧
    csum .highNibble ⟨0x39, 0x08, 0, 0, 0x04, 0, 0, 0xB0⟩ = 0x6 := by decide

/-- V27 and V28, their bytes laid out by R43: the word they print has byte 4 in the place of byte 3 (log 21). -/
theorem test_rawrd :
    resultAfter .rawrd (idle 0x39 0x08 0 0 0x04 0 0 0) = some 0x39080000040000B0 ∧
    resultAfter .rawrd (idle 0x39 0 0 0 0x04 0 0 0xB0) = some 0x3900000004000030 := by decide

/-- V29. -/
theorem test_rawrd_after_reset : resultAfter .rawrd zero = some 0x00000000000000A0 := by decide

/-! ### Transmit commands -/

/-- R86's example: the checksum is written, 64 bits are taken, split at 32. -/
theorem test_send :
    snapshotAfter (.send 0) (idle 0x39 0x08 0 0 0x04 0 0 0) = some (true, 64, 32) ∧
    (srAfter (.send 0) (idle 0x39 0x08 0 0 0x04 0 0 0)).map StateReg.b7 = some 0xB0 := by decide

/-- V41 and V43: no burst at 7; 72 bits split at 32 at 9. -/
theorem test_sendbuf :
    snapshotAfter (.sendbuf 7 5) afterP1 = some (false, 0, 0) ∧
    snapshotAfter (.sendbuf 9 0) afterP1 = some (true, 72, 32) := by decide

/-- R132: ten bytes where nine exist. -/
theorem test_sendbuf_stuck : faultOf (exec (.sendbuf 10 0) afterP1) = some .sendbufBeyondHostBuffer := by decide

/-- V46, V47, V48. -/
theorem test_sendpkd :
    snapshotAfter (.sendpkd 63 0) afterP1 = some (false, 0, 0) ∧
    snapshotAfter (.sendpkd 64 0) afterP1 = some (true, 64, 32) ∧
    snapshotAfter (.sendpkd 65 0) afterP1 = some (false, 0, 0) := by decide

/-- V51, V54, V56: the spaces of `0x39`, of `0xB0` and of the footer. -/
theorem test_bit_rendering :
    (msbFirst (0x39 : Byte)).map bitSpace = [540, 540, 1600, 1600, 1600, 540, 540, 1600] ∧
    (msbFirst (0xB0 : Byte)).map bitSpace = [1600, 540, 1600, 1600, 540, 540, 540, 540] ∧
    footer.map bitSpace = [540, 1600, 540] := by decide

set_option maxRecDepth 4000 in
/-- V59: the nominal duration of one repetition of P1's message. -/
theorem test_nominal_v59 : nominal (repetition (byteBits [0x39, 0x08, 0, 0, 0x04, 0, 0, 0xB0]) 32) = 140560 := by
  decide

/-- V61: after the header space the first bit's mark is issued. -/
theorem test_serializer_header_to_first_bit :
    (nextOf (step midBurst)).map (fun t => (t.st, t.j, t.trace)) =
      some (.d1m, 0, [.carrier 38, .mark 9000, .space 4000, .mark 620]) := by decide

/-! ### The step -/

/-- R131: a word presented during a burst stays on the port. -/
theorem test_word_held_while_busy :
    (nextOf (step { midBurst with cmds := [0] })).map State.cmds = some [0] := by decide

/-- P4 step 2: a reserved word is taken and changes nothing else. -/
theorem test_reserved_word_ignored :
    nextOf (step { afterP1 with cmds := [0xD00000000000FFFF] }) = some afterP1 := by decide

/-- Under the refusing policy the same word is refused by name (D4). -/
theorem test_reserved_word_refused :
    refusalOf (step { afterP1 with
      params := { paramsZ with reserved := .refuse }, cmds := [0xD00000000000FFFF] }) =
      some (.reservedWord 0xD00000000000FFFF) := by decide

/-- `withFetchWord` has the very next step run the word, from reset: GETTEMP reads 16 °C (R35, R76). -/
theorem test_withFetchWord :
    (nextOf (step (State.reset.withFetchWord 64 0x8000000000000000))).map State.result = some 16 := by decide

/-- R136: the run of one SETPWR ends after the step that accepts it, although `rst` is scheduled behind it. -/
theorem test_run_ends_before_a_later_rst :
    ∃ t, runEnds 1 { zero with cmds := [0x1001000000000000], turns := [.core, .rst] } t ∧ t.sr.b0 = 0x08 := by
  refine ⟨{ idle 0x08 0 0 0 0 0 0 0 with turns := [.rst] }, ⟨runsTo_one.2 rfl, ⟨rfl, rfl⟩, ?_⟩, rfl⟩
  intro m u hm hu
  obtain rfl : m = 0 := by omega
  obtain rfl := runsTo_zero.1 hu
  exact fun h => absurd h.1 (by decide)

/-- R123, R125: `rst` in the middle of a burst. -/
theorem test_rst :
    (nextOf (step { midBurst with turns := [.rst] })).map (fun t => (t.sr, t.busy, t.st, t.trace)) =
      some (⟨0, 0, 0, 0, 0, 0, 0, 0⟩, false, .idle, midBurst.trace) := by decide

/-! ### Witnesses

One theorem for each obligation with hypotheses: a state and operands that meet them, at the ends of their ranges where
there are several clauses. -/

/-- The parameters with high-nibble checksums. -/
def paramsHigh : Params := { paramsZ with variant := .highNibble }

/-- The parameters under which reserved words are refused. -/
def paramsRefuse : Params := { paramsZ with reserved := .refuse }

/-- The state right after the acceptance of `SEND 1` in `afterP1`. -/
def accepted : State := { midBurst with st := .car, trace := [.carrier 38] }

theorem witness_EveryOpcodeIsAssigned : rsv0 0xF000004000000000 = 0#4 ∧ rsv1 0xF000004000000000 = 0#16 := by decide

theorem witness_UnusedFieldsAreIgnored :
    decodeWord 0x2000000000000000 = .ok .getpwr ∧
    (0x20FFFFFFFFFF0000 : Word64) &&& usedBits .getpwr = 0x2000000000000000 &&& usedBits .getpwr := by decide

/-- Each range at its end, and the first value beyond it. -/
theorem witness_AssembledWordsDecode :
    255 ≤ 255 ∧ 255 < 256 ∧ 65535 ≤ 65535 ∧ 65535 < 65536 ∧ (65535 < 65536 ∨ 65535 < 0) ∧ (65535 < 0 ∨ 65535 < 65536) := by
  decide

theorem witness_PseudoInstructionWords : 0 ≤ 65535 ∧ 65535 ≤ 65535 := by decide

theorem witness_StepRunsTheDecodedCommand :
    ({ afterP1 with cmds := [0xD000000000020000] } : State).busy = false ∧
    nextTurn { afterP1 with cmds := [0xD000000000020000] } = .core ∧
    decodeWord 0xD000000000020000 = .ok (.send 2) := by decide

theorem witness_ReservedWordsAreIgnored :
    afterP1.busy = false ∧ nextTurn afterP1 = .core ∧
    ¬(rsv0 0x0100000000000000 = 0#4 ∧ rsv1 0x0100000000000000 = 0#16) ∧
    paramsZ.reserved = .ignore ∧ paramsRefuse.reserved = .refuse := by decide

theorem witness_CommandsAreHeldWhileBusy : midBurst.busy = true ∧ nextTurn midBurst = .core := by decide

/-- An ended run with a core turn left, and one with a host write left. -/
theorem witness_AnEndedRunStays :
    afterP1.ended ∧ nextTurn afterP1 = .core ∧
    ({ afterP1 with turns := [.writeBuffer 8 0] } : State).ended ∧
    nextTurn { afterP1 with turns := [.writeBuffer 8 0] } ≠ .rst ∧
    (nextOf (step { afterP1 with turns := [.writeBuffer 8 0] })).isSome :=
  ⟨⟨rfl, rfl⟩, rfl, ⟨rfl, rfl⟩, by decide, by decide⟩

/-- The three stops: ten bytes of nine, a host write at index 9, a reserved word under the refusing policy. -/
theorem witness_TheOnlyStops :
    faultOf (step { afterP1 with cmds := [0xE000000A00000000] }) = some .sendbufBeyondHostBuffer ∧
    faultOf (step { afterP1 with turns := [.writeBuffer 9 1] }) = some .hostWriteBeyondHostBuffer ∧
    refusalOf (step { afterP1 with params := paramsRefuse, cmds := [1] }) = some (.reservedWord 1) := by decide

theorem witness_SetpwrWritesBitThree :
    (srAfter (.setpwr 0) afterP1).map (fun r => r.b0.getLsbD 3) ≠ some (afterP1.sr.b0.getLsbD 3) ∧
    ¬stale .asWritten afterP1.sr := by decide

theorem witness_GettersReadTheirField : afterP1.sr.legal := by unfold StateReg.legal; decide

theorem witness_GettersReadTheirField_range : 16 ≤ (16 : Byte).toNat ∧ (16 : Byte).toNat ≤ 30 ∧ (30 : Byte).toNat ≤ 30 := by
  decide

theorem witness_CksumWritesTheSum :
    afterP1.params.variant = .asWritten ∧
    ({ afterP1 with params := paramsHigh } : State).params.variant = .highNibble := by decide

theorem witness_ChecksumReadsLowNibblesOnly :
    (0x39 : Byte).toNat % 16 = (0x09 : Byte).toNat % 16 ∧ (0xB0 : Byte).toNat % 16 = (0x00 : Byte).toNat % 16 := by decide

theorem witness_RawrdReturnsFreshBytes :
    afterP1.refreshChecksum.sr.bytes[0]? = some 0x39 ∧ afterP1.refreshChecksum.sr.bytes[7]? = some 0xB0 := by decide

theorem witness_ResetThenRawrdIsFixed : afterP1.params = paramsZ := rfl

/-- A fresh register with legal codes that SETPWR, SETMODE and SETTEMP change. -/
theorem witness_WhenTheChecksumIsStale :
    afterP1.params.variant = .asWritten ∧ ¬stale .asWritten afterP1.sr ∧
    srAfter (.setpwr 0) afterP1 ≠ some afterP1.sr ∧ srAfter (.setmode 0) afterP1 ≠ some afterP1.sr ∧
    srAfter (.settemp 30) afterP1 ≠ some afterP1.sr := by decide

theorem witness_RegisterCommandsAreIdempotent :
    isTransmit .cksum = false ∧ afterP1.params.variant = .asWritten ∧
    isTransmit (.setpwr 1) = false ∧ Instr.setpwr 1 ≠ .cksum ∧ Instr.setpwr 1 ≠ .rawrd := by decide

theorem witness_RegisterCommandFrame :
    isTransmit .getfan = false ∧ isGetter .getfan = true ∧ (nextOf (exec .getfan afterP1)).isSome ∧
    isGetter .cksum = false ∧ Instr.cksum ≠ .rawrd ∧ (nextOf (exec .cksum afterP1)).isSome := by decide

/-- The guard's two sides meet between 7 and 8; nine bytes exist. -/
theorem witness_SendbufGuard :
    (7 : Word16).toNat ≤ 7 ∧ 8 ≤ (8 : Word16).toNat ∧ (8 : Word16).toNat ≤ afterP1.params.hbSize.val ∧
    (9 : Word16).toNat ≤ afterP1.params.hbSize.val := by decide

theorem witness_SendbufSnapshotsTheHostBuffer :
    8 ≤ (9 : Word16).toNat ∧ (9 : Word16).toNat ≤ afterP1.params.hbSize.val ∧ 8 < (9 : Word16).toNat := by decide

theorem witness_SendbufBeyondTheBytesIsStuck :
    8 ≤ (10 : Word16).toNat ∧ afterP1.params.hbSize.val < (10 : Word16).toNat := by decide

theorem witness_SendpkdGuard :
    (63 : Word16).toNat ≠ afterP1.params.packedBits.val ∧ (64 : Word16).toNat = afterP1.params.packedBits.val ∧
    (65 : Word16).toNat ≠ afterP1.params.packedBits.val := by decide

theorem witness_SendpkdSnapshotsDataIn : (64 : Word16).toNat = afterP1.params.packedBits.val := by decide

theorem witness_TransmitCommandFrame :
    isTransmit (.send 1) = true ∧ (nextOf (exec (.send 1) afterP1)).isSome ∧
    isTransmit (.sendpkd 64 1) = true ∧ (nextOf (exec (.sendpkd 64 1) afterP1)).isSome ∧
    isTransmit (.sendbuf 9 1) = true ∧ (nextOf (exec (.sendbuf 9 1) afterP1)).isSome := by decide

theorem witness_TheTwoFormsAgreeOnEightBytes :
    afterP1.params.packedBits.val = 64 ∧ 8 ≤ afterP1.params.hbSize.val ∧
    ∀ i, i < 8 → afterP1.dataIn.toNat / 2 ^ (56 - 8 * i) % 256 = (Memory.read afterP1.hb i).toNat := by decide

theorem witness_RawrdThenSendpkdReproducesSend :
    afterP1.params.packedBits.val = 64 ∧ ({ afterP1 with params := paramsHigh } : State).params.packedBits.val = 64 := by
  decide

/-- Every row of the transition table: its phase, the bit it reads, and each side of its test. -/
theorem witness_SerializerTransitions :
    (∀ p : Phase, ({ midBurst with st := p } : State).busy = true ∧ nextTurn { midBurst with st := p } = .core) ∧
    midBurst.bits[0]? = some false ∧ midBurst.bits[63]? = some false ∧
    30 + 1 < midBurst.split ∧ midBurst.split ≤ 31 + 1 ∧ 0 < 3 ∧ 2 < 3 ∧ 1 + 1 < 3 ∧ 3 ≤ 2 + 1 ∧
    62 + 1 < midBurst.bits.length ∧ midBurst.bits.length ≤ 63 + 1 ∧
    (0 : Word16).toNat < midBurst.rmax.toNat ∧ midBurst.rmax.toNat ≤ (1 : Word16).toNat := by
  refine ⟨fun p => ⟨rfl, rfl⟩, by decide⟩

theorem witness_SerializerIssuesExactlyTheBurst :
    accepted.busy = true ∧ accepted.st = .car ∧ accepted.rep = 0 ∧ accepted.turns = [] ∧
    accepted.split ≤ accepted.bits.length := by decide

theorem witness_SendIssuesItsBurstAndCompletes :
    afterP1.busy = false ∧ afterP1.turns = [] ∧ decodeWord 0xD00000000FFF0000 = .ok (.send 0xFFF) := by decide

theorem witness_EventCounts : 0 ≤ midBurst.bits.length ∧ 64 ≤ midBurst.bits.length := by decide

theorem witness_NominalDuration : 32 ≤ midBurst.bits.length := by decide

theorem witness_AtMostOneLegalEventPerStep : (nextOf (step midBurst)).isSome := by decide

theorem witness_BurstIsFixedAtAcceptance :
    midBurst.busy = true ∧ nextTurn midBurst = .core ∧ (nextOf (step midBurst)).isSome := by decide

/-- `BUSY` rises on an accepted SENDPKD; it falls at the last trailing space, and on `rst`. -/
theorem witness_WhenBusyChanges :
    (nextOf (step { afterP1 with cmds := [0xF000004000000000] })).map State.busy = some true ∧
    (nextOf (step { midBurst with st := .ts, rep := 1 })).map State.busy = some false ∧
    (nextOf (step { midBurst with turns := [.rst] })).map State.busy = some false := by decide

theorem witness_RstResetsTheBlock : nextTurn { midBurst with turns := [.rst], cmds := [0] } = .rst := rfl

theorem witness_RstAbandonsTheBurst :
    ({ midBurst with turns := [.rst] } : State).turns = [.rst] ∧ ({ midBurst with turns := [.rst] } : State).cmds = [] :=
  ⟨rfl, rfl⟩

theorem witness_HostWriteIsReadBack :
    Memory.wf afterP1.hb ∧ nextTurn { afterP1 with turns := [.writeBuffer 8 0] } = .writeBuffer 8 0 ∧
    (0 : Word16).toNat < afterP1.params.hbSize.val ∧ (8 : Word16).toNat < afterP1.params.hbSize.val := by decide

theorem witness_HostInputsChangeOnlyThemselves :
    nextTurn { midBurst with turns := [.driveData 7] } = .driveData 7 ∧
    nextTurn { midBurst with turns := [.present 7] } = .present 7 := by decide

/-- The invariant holds in the middle of a burst, and the step from there exists. -/
theorem witness_StepKeepsTheInvariant : midBurst.Inv ∧ (nextOf (step midBurst)).isSome := by
  refine ⟨⟨?_, ?_, ?_, ?_, ?_, ?_⟩, by decide⟩
  · unfold StateReg.legal; decide
  · unfold StateReg.carriesDefaults; decide
  · unfold State.statusAgrees; decide
  · intro _
    refine ⟨by decide, by decide, by decide, trivial⟩
  · unfold State.bufferOk; decide
  · intro e he
    fin_cases he <;> (unfold Event.legal; decide)

/-- A SETVANE step: neither `rst` nor an accepted RESET. -/
theorem witness_ReservedBytesChangeOnlyAtReset :
    (nextOf (step { afterP1 with cmds := [0x9000000000000000] })).isSome ∧
    nextTurn { afterP1 with cmds := [0x9000000000000000] } ≠ .rst ∧
    ¬({ afterP1 with cmds := [0x9000000000000000] } : State).accepts .reset := by
  refine ⟨by decide, by decide, ?_⟩
  rintro ⟨-, -, w, ws, h, d⟩
  cases h
  exact absurd d (by decide)

/-- A program that a core move takes from, and one that a `present` turn only moves to the port. -/
theorem witness_CommandsAreTakenInOrder :
    (nextOf (step { afterP1 with cmds := [0] })).map State.pending = some [] ∧
    (nextOf (step { afterP1 with turns := [.present 0] })).map State.pending = some [0] := by decide

theorem witness_ARegisterProgramEndsAfterItsWords :
    afterP1.busy = false ∧ afterP1.turns = [] ∧
    ∀ w ∈ [0x1001000000000000, 0xC000000000000000], ∃ i, decodeWord w = .ok i ∧ isTransmit i = false := by
  refine ⟨rfl, rfl, ?_⟩
  rintro w (_ | ⟨_, _ | ⟨_, ⟨⟩⟩⟩)
  · exact ⟨.setpwr 1, by decide⟩
  · exact ⟨.rawrd, by decide⟩

theorem witness_ASendRunEndsWithItsBurst :
    afterP1.busy = false ∧ afterP1.turns = [] ∧
    ({ afterP1 with cmds := [0xD000000000000000] } : State).cmds = [0xD000000000000000] ∧
    decodeWord 0xD000000000000000 = .ok (.send 0) := by decide

theorem witness_WhoWritesResult :
    (nextOf (step { afterP1 with cmds := [0x8000000000000000] })).map State.result = some 24 ∧
    afterP1.result ≠ 24 := by decide

end Sys2Proof.Tests
end

section
/-! SUPPORT. What each command makes of the State Register and of `RESULT`, and what a transition of the serializer
leaves alone. -/

namespace Sys2Proof.Machine

/-! ### The State Register's writers -/

namespace StateReg

/-- The legal codes as arithmetic on bytes 0, 1 and 4 (R17, R19, R20, R22, R26). -/
theorem legal_iff (r : StateReg) :
    r.legal ↔ r.b0.toNat % 8 ≤ 4 ∧ r.b0.toNat / 16 ≤ 3 ∧ r.b1.toNat ≤ 14 ∧ r.b4.toNat ≤ 6 := by
  simp only [legal, mode_toNat, fan_toNat, temp, vane]

theorem legal_knownGood (p : Params) : (knownGood p).legal := (legal_iff _).2 (by simp [knownGood])

theorem legal_setMode {r : StateReg} (h : r.legal) {m : BitVec 3} (hm : m.toNat ≤ 4) : (r.setMode m).legal := by
  obtain ⟨hmode, hfan, htemp, hvane⟩ := (legal_iff r).1 h
  have hb := setMode_b0 r m
  exact (legal_iff _).2 ⟨by omega, by omega, htemp, hvane⟩

theorem legal_setPower {r : StateReg} (h : r.legal) (p : BitVec 1) : (r.setPower p).legal := by
  obtain ⟨hmode, hfan, htemp, hvane⟩ := (legal_iff r).1 h
  have hb := setPower_b0 r p
  exact (legal_iff _).2 ⟨by omega, by omega, htemp, hvane⟩

theorem legal_setFan {r : StateReg} (h : r.legal) {f : BitVec 4} (hf : f.toNat ≤ 3) : (r.setFan f).legal := by
  obtain ⟨hmode, hfan, htemp, hvane⟩ := (legal_iff r).1 h
  have hb := setFan_b0 r f
  exact (legal_iff _).2 ⟨by omega, by omega, htemp, hvane⟩

theorem legal_setTemp {r : StateReg} (h : r.legal) {t : Byte} (ht : t.toNat ≤ 14) : (r.setTemp t).legal := by
  obtain ⟨hmode, hfan, -, hvane⟩ := h
  exact ⟨hmode, hfan, ht, hvane⟩

theorem legal_setVane {r : StateReg} (h : r.legal) {v : Byte} (hv : v.toNat ≤ 6) : (r.setVane v).legal := by
  obtain ⟨hmode, hfan, htemp, -⟩ := h
  exact ⟨hmode, hfan, htemp, hv⟩

theorem legal_setChecksum {r : StateReg} (h : r.legal) (c : BitVec 4) : (r.setChecksum c).legal := h

/-- CHECKSUM's writer keeps the low nibble of byte 7 (R24). -/
@[simp] theorem lowNibble_setChecksum (r : StateReg) (c : BitVec 4) :
    lowNibble (r.setChecksum c).b7 = lowNibble r.b7 := by
  apply BitVec.eq_of_toNat_eq
  rw [lowNibble_toNat, lowNibble_toNat, setChecksum_b7]
  omega

/-- Two registers agree on what only a reset writes: bytes 2, 3, 5, 6 and the low nibble of byte 7 (R133). -/
def agreesOnReserved (q r : StateReg) : Prop :=
  q.b2 = r.b2 ∧ q.b3 = r.b3 ∧ q.b5 = r.b5 ∧ q.b6 = r.b6 ∧ lowNibble q.b7 = lowNibble r.b7

theorem agreesOnReserved_refl (r : StateReg) : r.agreesOnReserved r := ⟨rfl, rfl, rfl, rfl, rfl⟩

theorem agreesOnReserved_setChecksum (r : StateReg) (c : BitVec 4) : (r.setChecksum c).agreesOnReserved r :=
  ⟨rfl, rfl, rfl, rfl, lowNibble_setChecksum r c⟩

theorem carriesDefaults_knownGood (p : Params) : (knownGood p).carriesDefaults p := ⟨rfl, rfl, rfl, rfl, rfl⟩

theorem carriesDefaults_congr {p : Params} {q r : StateReg} (hq : q.agreesOnReserved r) (hr : r.carriesDefaults p) :
    q.carriesDefaults p := by
  obtain ⟨q2, q3, q5, q6, q7⟩ := hq
  obtain ⟨r2, r3, r5, r6, r7⟩ := hr
  exact ⟨q2.trans r2, q3.trans r3, q5.trans r5, q6.trans r6, q7.trans r7⟩

end StateReg

/-! ### Commands -/

/-- The State Register after a command (R68 to R88), `r` before it. -/
def registerAfter (p : Params) (r : StateReg) : Instr → StateReg
  | .reset => StateReg.knownGood p
  | .setpwr imm => r.setPower (powerValue imm)
  | .setmode imm => r.setMode (modeValue imm)
  | .setfan imm => r.setFan (fanValue imm)
  | .settemp imm => r.setTemp (tempValue imm)
  | .setvane imm => r.setVane (vaneValue imm)
  | .cksum | .rawrd | .send _ => r.setChecksum (csum p.variant r)
  | .getpwr | .getmode | .getfan | .gettemp | .getvane | .sendbuf _ _ | .sendpkd _ _ => r

/-- What a command that goes on makes of the State Register. -/
theorem exec_sr {i : Instr} {s t : State} (h : exec i s = .next t) : t.sr = registerAfter s.params s.sr i := by
  cases i with
  | sendbuf cnt r | sendpkd cnt r =>
    obtain rfl | ⟨c, l, k, r, rfl, rfl | ⟨-, hsend⟩, -⟩ := exec_transmit rfl h
    · rfl
    · rfl
    · cases hsend
  | _ => cases h; rfl

/-- Only the getters and RAWRD write `RESULT` (R27). -/
theorem exec_result {i : Instr} {s t : State} (h : exec i s = .next t) (hg : isGetter i = false) (hr : i ≠ .rawrd) :
    t.result = s.result := by
  cases i with
  | getpwr | getmode | getfan | gettemp | getvane => cases hg
  | rawrd => exact absurd rfl hr
  | sendbuf | sendpkd => obtain rfl | ⟨c, l, k, r, rfl, rfl | ⟨rfl, -⟩, -⟩ := exec_transmit rfl h <;> rfl
  | _ => cases h; rfl

/-- No command touches the parameters, the host buffer, `DATA_IN` or `j`. -/
theorem exec_frame {i : Instr} {s t : State} (h : exec i s = .next t) :
    t.params = s.params ∧ t.hb = s.hb ∧ t.dataIn = s.dataIn ∧ t.j = s.j := by
  cases hi : isTransmit i with
  | false =>
    obtain ⟨r, v, e⟩ := exec_register i s hi
    obtain rfl := Host.Outcome.next.inj (e.symm.trans h)
    exact ⟨rfl, rfl, rfl, rfl⟩
  | true => obtain rfl | ⟨c, l, k, r, rfl, rfl | ⟨rfl, -⟩, -⟩ := exec_transmit hi h <;> exact ⟨rfl, rfl, rfl, rfl⟩

/-- Every command but RESET keeps what only a reset writes (R133). -/
theorem registerAfter_agreesOnReserved {i : Instr} (hi : i ≠ .reset) (p : Params) (r : StateReg) :
    (registerAfter p r i).agreesOnReserved r := by
  cases i with
  | reset => exact absurd rfl hi
  | cksum | rawrd | send => exact r.agreesOnReserved_setChecksum _
  | _ => exact r.agreesOnReserved_refl

theorem registerAfter_carriesDefaults (i : Instr) {p : Params} {r : StateReg} (h : r.carriesDefaults p) :
    (registerAfter p r i).carriesDefaults p := by
  by_cases hi : i = .reset
  · rw [hi]
    exact StateReg.carriesDefaults_knownGood p
  · exact StateReg.carriesDefaults_congr (registerAfter_agreesOnReserved hi p r) h

/-- Every command stores legal codes only (R26). -/
theorem registerAfter_legal (i : Instr) (p : Params) {r : StateReg} (h : r.legal) : (registerAfter p r i).legal := by
  cases i with
  | reset => exact StateReg.legal_knownGood p
  | setpwr imm => exact StateReg.legal_setPower h _
  | setmode imm =>
    have hm := modeValue_toNat imm
    exact StateReg.legal_setMode h (by split_ifs at hm <;> omega)
  | setfan imm =>
    have hf := fanValue_toNat imm
    exact StateReg.legal_setFan h (by omega)
  | settemp imm =>
    have ht := tempValue_toNat imm
    exact StateReg.legal_setTemp h (by omega)
  | setvane imm =>
    have hv := vaneValue_toNat imm
    exact StateReg.legal_setVane h (by split_ifs at hv <;> omega)
  | cksum | rawrd | send => exact StateReg.legal_setChecksum h _
  | getpwr | getmode | getfan | gettemp | getvane | sendbuf | sendpkd => exact h

/-! ### The serializer's transition -/

namespace State

/-- A transition writes `BUSY`, `st`, `rep`, `j` and the trace at most (R103). -/
theorem advance_eq (s : State) :
    s.advance = { s with busy := s.advance.busy, st := s.advance.st, rep := s.advance.rep, j := s.advance.j,
                         trace := s.advance.trace } := by
  obtain ⟨p, n, r, h, -⟩ | ⟨h, -⟩ | ⟨h, -⟩ := advance_cases s <;> rw [h]

@[simp] theorem advance_params (s : State) : s.advance.params = s.params := by rw [advance_eq]
@[simp] theorem advance_sr (s : State) : s.advance.sr = s.sr := by rw [advance_eq]
@[simp] theorem advance_result (s : State) : s.advance.result = s.result := by rw [advance_eq]
@[simp] theorem advance_rmax (s : State) : s.advance.rmax = s.rmax := by rw [advance_eq]
@[simp] theorem advance_bits (s : State) : s.advance.bits = s.bits := by rw [advance_eq]
@[simp] theorem advance_split (s : State) : s.advance.split = s.split := by rw [advance_eq]
@[simp] theorem advance_hb (s : State) : s.advance.hb = s.hb := by rw [advance_eq]
@[simp] theorem advance_dataIn (s : State) : s.advance.dataIn = s.dataIn := by rw [advance_eq]
@[simp] theorem advance_cmds (s : State) : s.advance.cmds = s.cmds := by rw [advance_eq]
@[simp] theorem advance_turns (s : State) : s.advance.turns = s.turns := by rw [advance_eq]

/-- A transition keeps `BUSY = 1` exactly outside `IDLE`. -/
theorem statusAgrees_advance {s : State} (h : s.statusAgrees) : s.advance.statusAgrees := by
  obtain ⟨p, n, r, ha, hp, -, hst, -⟩ | ⟨ha, -⟩ | ⟨ha, -⟩ := advance_cases s
  · rw [ha]
    exact iff_of_true (h.2 hst) hp
  · rw [ha]
    exact iff_of_false nofun (fun hst => hst rfl)
  · rwa [ha]

/-- A transition issues only events of the fixed set (R98, R99). -/
theorem traceLegal_advance {s : State} (h : s.traceLegal) : s.advance.traceLegal := by
  obtain ⟨p, n, r, -, -, htrace, -⟩ | ⟨ha, -⟩ | ⟨ha, -⟩ := advance_cases s
  · intro e he
    rw [htrace, List.mem_append] at he
    exact he.elim (h e) (phaseEvent_legal _ _ e)
  · rw [ha]
    exact h
  · rwa [ha]

/-- A transition never counts a repetition past `rmax` (R104). -/
theorem rep_le_advance {s : State} (h : s.rep ≤ s.rmax) : s.advance.rep ≤ s.rmax := by
  obtain ⟨p, n, r, ha, -, -, -, rfl | ⟨hlt, rfl⟩⟩ | ⟨ha, -⟩ | ⟨ha, -⟩ := advance_cases s <;> rw [ha]
  · exact h
  · show s.rep + 1 ≤ s.rmax
    bv_omega
  · exact h
  · exact h

/-- A transition keeps `j` inside the run that the phase walks (R103, R104). -/
theorem indexOk_advance {s : State} (h : s.indexOk) : s.advance.indexOk := by
  unfold indexOk at h
  cases hst : s.st with
  | idle => simp only [advance, indexOk, hst]
  | car | hm | gm | tm =>
    simp only [advance, hst]
    exact trivial
  | d1m | fm | d2m =>
    simp only [advance, hst] at h ⊢
    exact h
  | hs =>
    simp only [advance, hst]
    split_ifs with hsplit
    · exact hsplit
    · exact (by decide : 0 < footer.length)
  | d1s =>
    simp only [advance, hst]
    split_ifs with hnext
    · exact hnext
    · exact (by decide : 0 < footer.length)
  | fs =>
    simp only [advance, hst]
    split_ifs with hnext
    · exact hnext
    · exact trivial
  | gs =>
    simp only [advance, hst]
    split_ifs with hsecond
    · exact ⟨le_rfl, hsecond⟩
    · exact trivial
  | d2s =>
    simp only [advance, hst] at h ⊢
    split_ifs with hnext
    · exact ⟨Nat.le_succ_of_le h.1, hnext⟩
    · exact trivial
  | ts =>
    simp only [advance, hst]
    split_ifs <;> exact trivial

/-- A transition keeps the serializer's registers in order (R103, R104). -/
theorem burstOk_advance {s : State} (hs : s.statusAgrees) (h : s.burstOk) : s.advance.burstOk := by
  intro hbusy
  have hst : s.advance.st ≠ .idle := (statusAgrees_advance hs).1 hbusy
  have hrun : s.st ≠ .idle := fun hidle => hst (by simp [advance, hidle])
  obtain ⟨hrep, hsplit, hlen, hindex⟩ := h (hs.2 hrun)
  rw [advance_rmax, advance_split, advance_bits]
  exact ⟨rep_le_advance hrep, hsplit, hlen, indexOk_advance hindex⟩

end State

end Sys2Proof.Machine
end

section
/-! SUPPORT. The invariant of the block, part by part: every named update of State that a step makes keeps it. -/

namespace Sys2Proof.Machine

namespace State

/-- `RESULT`, `DATA_IN`, the port and the schedule are no part of the invariant. -/
theorem Inv.setPorts {s : State} (h : s.Inv) (v d : Word64) (cs : List Word64) (ts : List Turn) :
    ({ s with result := v, dataIn := d, cmds := cs, turns := ts } : State).Inv :=
  ⟨h.legal, h.defaults, h.status, h.serializer, h.buffer, h.trace⟩

theorem Inv.setSr {s : State} (h : s.Inv) {r : StateReg} (hl : r.legal) (hd : r.carriesDefaults s.params) :
    (s.setSr r).Inv :=
  ⟨hl, hd, h.status, h.serializer, h.buffer, h.trace⟩

theorem Inv.refreshChecksum {s : State} (h : s.Inv) : s.refreshChecksum.Inv :=
  h.setSr (StateReg.legal_setChecksum h.legal _)
    (StateReg.carriesDefaults_congr (StateReg.agreesOnReserved_setChecksum _ _) h.defaults)

/-- A host write to a byte that exists keeps the buffer canonical (R40). -/
theorem Inv.hostWrite {s : State} (h : s.Inv) {i : Word16} (hi : i.toNat < s.params.hbSize.val) (b : Byte) :
    (s.setHb (Memory.write s.hb i.toNat b)).Inv := by
  obtain ⟨hwf, hsize⟩ := h.buffer
  refine ⟨h.legal, h.defaults, h.status, h.serializer, ⟨Memory.write_wf _ _ _ i.isLt hwf, fun c hc => ?_⟩, h.trace⟩
  obtain hc | ⟨rfl, -⟩ := Memory.mem_write _ _ _ _ hc
  · exact hsize c hc
  · exact hi

/-- An idle block with the register as a reset writes it: what is left to say is the buffer and the trace. -/
theorem Inv.of_knownGood {s : State} (hsr : s.sr = StateReg.knownGood s.params) (hbusy : s.busy = false)
    (hst : s.st = .idle) (hhb : s.bufferOk) (htrace : s.traceLegal) : s.Inv where
  legal := hsr ▸ StateReg.legal_knownGood _
  defaults := hsr ▸ StateReg.carriesDefaults_knownGood _
  status := by simp [statusAgrees, hbusy, hst]
  serializer := by simp [burstOk, hbusy]
  buffer := hhb
  trace := htrace

theorem Inv.hardReset {s : State} (h : s.Inv) : s.hardReset.Inv := .of_knownGood rfl rfl rfl h.buffer h.trace

/-- The start of a burst sets the serializer's registers and issues the carrier (R85). -/
theorem Inv.startBurst {s : State} (h : s.Inv) {l : List Bool} {k : Nat} (hk : k ≤ l.length)
    (hl : l.length ≤ 8 * 65535) (r : Word16) : (s.startBurst l k r).Inv where
  legal := h.legal
  defaults := h.defaults
  status := iff_of_true rfl nofun
  serializer := fun _ => ⟨BitVec.le_def.2 (Nat.zero_le _), hk, hl, trivial⟩
  buffer := h.buffer
  trace := by
    intro e he
    rw [startBurst_trace, List.mem_append, List.mem_singleton] at he
    obtain he | rfl := he
    · exact h.trace e he
    · rfl

theorem Inv.advance {s : State} (h : s.Inv) : s.advance.Inv where
  legal := by rw [advance_sr]; exact h.legal
  defaults := by rw [advance_sr, advance_params]; exact h.defaults
  status := statusAgrees_advance h.status
  serializer := burstOk_advance h.status h.serializer
  buffer := by rw [bufferOk, advance_hb, advance_params]; exact h.buffer
  trace := traceLegal_advance h.trace

end State

/-- Every command keeps the invariant. -/
theorem exec_inv {i : Instr} {s t : State} (h : exec i s = .next t) (hs : s.Inv) : t.Inv := by
  cases hi : isTransmit i with
  | false =>
    obtain ⟨r, v, e⟩ := exec_register i s hi
    obtain rfl := Host.Outcome.next.inj (e.symm.trans h)
    obtain rfl : r = registerAfter s.params s.sr i := exec_sr h
    exact (hs.setSr (registerAfter_legal i _ hs.legal) (registerAfter_carriesDefaults i hs.defaults)).setPorts v _ _ _
  | true =>
    obtain rfl | ⟨c, l, k, r, rfl, rfl | ⟨rfl, -⟩, hk, hl⟩ := exec_transmit hi h
    · exact hs
    · exact hs.startBurst hk hl r
    · exact hs.refreshChecksum.startBurst hk hl r

/-- Every step keeps the invariant. -/
theorem step_inv {s t : State} (h : step s = .next t) (hs : s.Inv) : t.Inv := by
  have hpop : s.popTurn.Inv := hs.setPorts _ _ _ _
  obtain ⟨d, -, rfl⟩ | ⟨w, -, rfl⟩ | ⟨i, b, -, hi, rfl⟩ | ⟨-, rfl⟩ | ⟨-, -, rfl⟩ | ⟨-, -, rfl | rfl⟩ | ⟨i, -, he⟩ :=
    step_cases h
  · exact hpop.setPorts _ _ _ _
  · exact hpop.setPorts _ _ _ _
  · exact hpop.hostWrite hi b
  · exact hpop.hardReset
  · exact hpop.advance
  · exact hpop
  · exact hpop.setPorts _ _ _ _
  · exact exec_inv he (hpop.setPorts _ _ _ _)

/-- No step changes the parameters (log 1). -/
theorem step_params {s t : State} (h : step s = .next t) : t.params = s.params := by
  obtain ⟨d, -, rfl⟩ | ⟨w, -, rfl⟩ | ⟨i, b, -, -, rfl⟩ | ⟨-, rfl⟩ | ⟨-, -, rfl⟩ | ⟨-, -, rfl | rfl⟩ | ⟨i, -, he⟩ :=
    step_cases h
  · rfl
  · rfl
  · rfl
  · rfl
  · exact State.advance_params _
  · rfl
  · rfl
  · exact (exec_frame he).1

/-- Settles O50: every named update that a step makes keeps the invariant. -/
theorem stepKeepsTheInvariant : Obligations.StepKeepsTheInvariant := fun _ _ hs h => ⟨step_inv h hs, step_params h⟩

/-- Settles O51: an idle block with the known-good register, an empty buffer and an empty trace. -/
theorem invariantHoldsAtReset : Obligations.InvariantHoldsAtReset :=
  .of_knownGood rfl rfl rfl ⟨⟨.nil, nofun⟩, nofun⟩ nofun

end Sys2Proof.Machine
end

section
/-! SUPPORT. Which step changes the State Register, `RESULT`, `BUSY` and what is left of the host program; the obligations
about the state. -/

namespace Sys2Proof.Machine

/-! ### The registers and `BUSY` -/

/-- The State Register changes only by `rst` and by the acceptance of a command. -/
theorem step_sr {s t : State} (h : step s = .next t) :
    t.sr = s.sr ∨ (nextTurn s = .rst ∧ t.sr = StateReg.knownGood s.params) ∨
    ∃ i, s.accepts i ∧ t.sr = registerAfter s.params s.sr i := by
  obtain ⟨d, -, rfl⟩ | ⟨w, -, rfl⟩ | ⟨i, b, -, -, rfl⟩ | ⟨ht, rfl⟩ | ⟨-, -, rfl⟩ | ⟨-, -, rfl | rfl⟩ | ⟨i, hi, he⟩ :=
    step_cases h
  · exact .inl rfl
  · exact .inl rfl
  · exact .inl rfl
  · exact .inr (.inl ⟨ht, rfl⟩)
  · exact .inl (State.advance_sr _)
  · exact .inl rfl
  · exact .inl rfl
  · have hsr := exec_sr he
    exact .inr (.inr ⟨i, hi, hsr⟩)

/-- Settles O52: of the commands, only RESET writes one of these bytes. -/
theorem reservedBytesChangeOnlyAtReset : Obligations.ReservedBytesChangeOnlyAtReset := by
  intro s t h hrst hreset
  have hsame : t.sr.agreesOnReserved s.sr := by
    obtain hsr | ⟨ht, -⟩ | ⟨i, hi, hsr⟩ := step_sr h
    · rw [hsr]
      exact s.sr.agreesOnReserved_refl
    · exact absurd ht hrst
    · have hne : i ≠ .reset := fun he => hreset (he ▸ hi)
      rw [hsr]
      exact registerAfter_agreesOnReserved hne _ _
  obtain ⟨h2, h3, h5, h6, h7⟩ := hsame
  refine ⟨h2, h3, h5, h6, ?_⟩
  rw [← lowNibble_toNat, h7, lowNibble_toNat]

/-- Settles O53: of the commands, only a getter and RAWRD write `RESULT`. -/
theorem whoWritesResult : Obligations.WhoWritesResult := by
  intro s t h hne
  obtain ⟨d, -, rfl⟩ | ⟨w, -, rfl⟩ | ⟨i, b, -, -, rfl⟩ | ⟨ht, rfl⟩ | ⟨-, -, rfl⟩ | ⟨-, -, rfl | rfl⟩ | ⟨i, hi, he⟩ :=
    step_cases h
  · exact absurd rfl hne
  · exact absurd rfl hne
  · exact absurd rfl hne
  · exact .inl ht
  · exact absurd (State.advance_result _) hne
  · exact absurd rfl hne
  · exact absurd rfl hne
  · refine .inr ⟨i, hi, ?_⟩
    by_contra hwrites
    obtain ⟨hg, hr⟩ := not_or.1 hwrites
    have hresult := exec_result he (by simpa using hg) hr
    exact hne hresult

/-- A command leaves `BUSY` alone, or it is a transmit command that starts a burst. -/
theorem exec_busy {i : Instr} {s t : State} (h : exec i s = .next t) :
    t.busy = s.busy ∨ (isTransmit i = true ∧ t.busy = true ∧ t.st = .car) := by
  cases hi : isTransmit i with
  | false =>
    obtain ⟨r, v, e⟩ := exec_register i s hi
    obtain rfl := Host.Outcome.next.inj (e.symm.trans h)
    exact .inl rfl
  | true =>
    obtain rfl | ⟨c, l, k, r, rfl, -⟩ := exec_transmit hi h
    · exact .inl rfl
    · exact .inr ⟨rfl, rfl, rfl⟩

/-- A transition leaves `BUSY` alone, or it completes the last repetition's trailer (R105). -/
theorem advance_busy (s : State) :
    s.advance.busy = s.busy ∨ (s.st = .ts ∧ s.rmax.toNat ≤ s.rep.toNat ∧ s.advance.st = .idle) := by
  obtain ⟨p, n, r, ha, -⟩ | ⟨ha, hst, hrep⟩ | ⟨ha, -⟩ := advance_cases s
  · exact .inl (by rw [ha])
  · exact .inr ⟨hst, Nat.not_lt.1 hrep, by rw [ha]⟩
  · exact .inl (by rw [ha])

/-- All that a step can do to `BUSY`: nothing, clear it by `rst`, set it by accepting a transmit command, or clear it at the
end of the burst. -/
theorem step_busy {s t : State} (h : step s = .next t) :
    t.busy = s.busy ∨ (nextTurn s = .rst ∧ t.busy = false) ∨
    (∃ i, s.accepts i ∧ isTransmit i = true ∧ t.busy = true ∧ t.st = .car) ∨
    (nextTurn s = .core ∧ s.busy = true ∧ s.st = .ts ∧ s.rmax.toNat ≤ s.rep.toNat ∧ t.st = .idle) := by
  obtain ⟨d, -, rfl⟩ | ⟨w, -, rfl⟩ | ⟨i, b, -, -, rfl⟩ | ⟨ht, rfl⟩ | ⟨ht, hb, rfl⟩ | ⟨-, -, rfl | rfl⟩ | ⟨i, hi, he⟩ :=
    step_cases h
  · exact .inl rfl
  · exact .inl rfl
  · exact .inl rfl
  · exact .inr (.inl ⟨ht, rfl⟩)
  · exact (advance_busy s.popTurn).imp id fun hend => .inr (.inr ⟨ht, hb, hend⟩)
  · exact .inl rfl
  · exact .inl rfl
  · exact (exec_busy he).imp id fun hstart => .inr (.inl ⟨i, hi, hstart⟩)

/-- Settles O44: of the ways a step changes `BUSY`, one sets it and two clear it. -/
theorem whenBusyChanges : Obligations.WhenBusyChanges := by
  intro s t h
  obtain hsame | ⟨ht, hclear⟩ | ⟨i, hi, htr, hset, hst⟩ | ⟨ht, hb, hts, hrep, hidle⟩ := step_busy h
  · rw [hsame]
    exact ⟨fun h0 h1 => absurd (h0.symm.trans h1) nofun, fun h1 h0 => absurd (h1.symm.trans h0) nofun⟩
  · exact ⟨fun _ h1 => absurd (hclear.symm.trans h1) nofun, fun _ _ => .inl ht⟩
  · exact ⟨fun _ _ => ⟨hst, i, hi, htr⟩, fun _ h0 => absurd (hset.symm.trans h0) nofun⟩
  · exact ⟨fun h0 => absurd (hb.symm.trans h0) nofun, fun _ _ => .inr ⟨ht, hts, hrep, hidle⟩⟩

/-- Settles O33: SEND writes the checksum, SENDBUF and SENDPKD leave the register. -/
theorem transmitCommandFrame : Obligations.TransmitCommandFrame := by
  intro s t i hi h
  obtain ⟨hparams, hhb, hdata, hj⟩ := exec_frame h
  obtain ⟨hcmds, hturns⟩ := exec_cmds_turns h
  have hhb' (a : Nat) : Memory.read t.hb a = Memory.read s.hb a := by rw [hhb]
  have hsr : t.sr = registerAfter s.params s.sr i := exec_sr h
  cases i with
  | send r =>
    refine ⟨exec_result h rfl nofun, hdata, hcmds, hturns, hparams, hj, hhb', fun hne => absurd rfl (hne r),
      by rw [hsr]; rfl, ?_⟩
    rw [hsr, registerAfter, ← lowNibble_toNat, StateReg.lowNibble_setChecksum, lowNibble_toNat]
  | sendbuf | sendpkd =>
    exact ⟨exec_result h rfl nofun, hdata, hcmds, hturns, hparams, hj, hhb', fun _ => hsr, by rw [hsr]; rfl,
      by rw [hsr]; rfl⟩
  | _ => cases hi

/-- Settles O7: the acceptance as the step performs it, with the two updates around it written out. -/
theorem stepRunsTheDecodedCommand : Obligations.StepRunsTheDecodedCommand := by
  intro s w ws i hb ht hc hd
  rw [step_of_accepts ⟨hb, ht, w, ws, hc, hd⟩, State.takeCommand, State.popTurn]
  simp only [hc, List.tail_cons]

/-- Settles O47: the table is `State.reset`, field by field. -/
theorem resetValues : Obligations.ResetValues := ⟨rfl, rfl, rfl, rfl, rfl, rfl, rfl, rfl, rfl, rfl, rfl⟩

/-- The step that makes the next turn's move. -/
theorem step_of_nextTurn {s : State} {m : Turn} (h : nextTurn s = m) : step s = move m s.popTurn := by
  rw [step, takeTurn, h]

/-- Settles O49: each turn's move is one named update. -/
theorem hostInputsChangeOnlyThemselves : Obligations.HostInputsChangeOnlyThemselves :=
  fun _ _ _ => ⟨step_of_nextTurn, step_of_nextTurn⟩

/-! ### The host program -/

namespace State

theorem pending_congr {s t : State} (hc : t.cmds = s.cmds) (ht : t.turns = s.turns) : t.pending = s.pending := by
  rw [pending, pending, hc, ht]

/-- A turn that presents nothing leaves what is left of the program as it is. -/
theorem pending_popTurn {s : State} (h : (nextTurn s).presented = none) : s.popTurn.pending = s.pending := by
  unfold pending
  rw [popTurn_cmds, popTurn_turns]
  cases ht : s.turns with
  | nil => rfl
  | cons m ms =>
    have hm : m.presented = none := by simpa [nextTurn, ht] using h
    rw [List.tail_cons, List.filterMap_cons_none hm]

/-- Presenting a word moves it from the schedule to the port. -/
theorem pending_presentCommand {s : State} {w : Word64} (h : nextTurn s = .present w) :
    (s.popTurn.presentCommand w).pending = s.pending := by
  unfold pending
  rw [presentCommand_cmds, presentCommand_turns, popTurn_cmds, popTurn_turns]
  cases ht : s.turns with
  | nil => simp [nextTurn, ht] at h
  | cons m ms =>
    obtain rfl : m = .present w := by simpa [nextTurn, ht] using h
    simp [Turn.presented]

/-- Taking the word on the port takes the first word of the program. -/
theorem pending_takeCommand {s : State} {w : Word64} {ws : List Word64} (h : s.cmds = w :: ws) :
    s.pending = w :: s.takeCommand.pending := by
  rw [pending, pending, takeCommand_cmds, takeCommand_turns, h, List.tail_cons, List.cons_append]

/-- With no word on the port there is none to take. -/
theorem takeCommand_of_nil {s : State} (h : s.cmds = []) : s.takeCommand = s := by
  rw [takeCommand, h, List.tail_nil, ← h]

end State

/-- Settles O54: only the acceptance takes a word; presenting one moves it from the schedule to the port. -/
theorem commandsAreTakenInOrder : Obligations.CommandsAreTakenInOrder := by
  intro s t h
  have takes {w : Word64} {ws : List Word64} (ht : nextTurn s = .core) (hc : s.cmds = w :: ws) :
      s.pending = w :: s.popTurn.takeCommand.pending := by
    have hport : s.popTurn.cmds = w :: ws := hc
    rw [← State.pending_takeCommand hport, State.pending_popTurn (by rw [ht]; rfl)]
  have keeps (hm : (nextTurn s).presented = none) (hc : t.cmds = s.cmds) (ht : t.turns = s.turns.tail) :
      t.pending = s.pending := by
    have hpop : t.pending = s.popTurn.pending := State.pending_congr hc ht
    rw [hpop, State.pending_popTurn hm]
  obtain ⟨d, ht, rfl⟩ | ⟨w, ht, rfl⟩ | ⟨i, b, ht, -, rfl⟩ | ⟨ht, rfl⟩ | ⟨ht, -, rfl⟩ | ⟨ht, hb, rfl | rfl⟩ |
    ⟨i, hi, he⟩ := step_cases h
  · exact .inl (keeps (by rw [ht]; rfl) rfl rfl)
  · exact .inl (State.pending_presentCommand ht)
  · exact .inl (keeps (by rw [ht]; rfl) rfl rfl)
  · exact .inl (keeps (by rw [ht]; rfl) rfl rfl)
  · exact .inl (keeps (by rw [ht]; rfl) (State.advance_cmds _) (State.advance_turns _))
  · exact .inl (keeps (by rw [ht]; rfl) rfl rfl)
  · cases hc : s.cmds with
    | nil => exact .inl (keeps (by rw [ht]; rfl) (by simp [hc]) rfl)
    | cons w ws => exact .inr ⟨hb, ht, w, ws, rfl, takes ht hc⟩
  · obtain ⟨hb, ht, w, ws, hc, -⟩ := hi
    obtain ⟨hcmds, hturns⟩ := exec_cmds_turns he
    rw [State.pending_congr hcmds hturns]
    exact .inr ⟨hb, ht, w, ws, hc, takes ht hc⟩

/-- The acceptance of a register command takes its word and leaves `BUSY`, the schedule and the trace as they are. -/
theorem step_of_accepts_register {s : State} {i : Instr} (h : s.accepts i) (hi : isTransmit i = false) :
    ∃ t, step s = .next t ∧ t.cmds = s.cmds.tail ∧ t.turns = s.turns.tail ∧ t.busy = s.busy ∧ t.trace = s.trace := by
  obtain ⟨r, v, e⟩ := exec_register i s.popTurn.takeCommand hi
  exact ⟨_, (step_of_accepts h).trans e, rfl, rfl, rfl, rfl⟩

/-- Settles O55, by induction on the words on the port. -/
theorem aRegisterProgramEndsAfterItsWords : Obligations.ARegisterProgramEndsAfterItsWords := by
  intro s hb ht hwords
  induction hc : s.cmds generalizing s with
  | nil => exact ⟨s, runEnds_zero ⟨by simp [State.pending, hc, ht], hb⟩, rfl⟩
  | cons w ws ih =>
    obtain ⟨i, hd, hi⟩ := hwords w (by simp [hc])
    have haccepts : s.accepts i := ⟨hb, by simp [nextTurn, ht], w, ws, hc, hd⟩
    have hgoing : ¬s.ended := fun hended => by simpa [State.pending, hc] using hended.1
    obtain ⟨u, hstep, hucmds, huturns, hubusy, hutrace⟩ := step_of_accepts_register haccepts hi
    rw [hc, List.tail_cons] at hucmds
    obtain ⟨t, hends, htrace⟩ := ih u (hubusy.trans hb) (by rw [huturns, ht]; rfl)
      (fun x hx => hwords x (by rw [hucmds] at hx; simp [hc, hx])) hucmds
    exact ⟨t, runEnds_succ hgoing hstep hends, htrace.trans hutrace⟩

end Sys2Proof.Machine
end

section
/-! SUPPORT. Reads after writes, of the State Register, of `RESULT` and of the host buffer; the snapshot
of a burst and what it no longer reads; the obligations about them (R40 to R51). -/

namespace Sys2Proof.Machine

/-! ### The State Register's fields -/

namespace StateReg

@[simp] theorem power_setPower (r : StateReg) (p : BitVec 1) : (r.setPower p).power = p := by
  apply BitVec.eq_of_toNat_eq
  rw [power_toNat, setPower_b0]
  omega

@[simp] theorem mode_setMode (r : StateReg) (m : BitVec 3) : (r.setMode m).mode = m := by
  apply BitVec.eq_of_toNat_eq
  rw [mode_toNat, setMode_b0]
  omega

@[simp] theorem fan_setFan (r : StateReg) (f : BitVec 4) : (r.setFan f).fan = f := by
  apply BitVec.eq_of_toNat_eq
  rw [fan_toNat, setFan_b0]
  omega

/-- What GETTEMP reads after TEMP's writer (R75, R76). -/
theorem celsius_setTemp_toNat (r : StateReg) (t : Byte) : (celsius (r.setTemp t)).toNat = (t.toNat + 16) % 256 := rfl

/-- The later write of POWER counts. -/
@[simp] theorem setPower_setPower (r : StateReg) (p q : BitVec 1) : (r.setPower p).setPower q = r.setPower q := by
  have hb : ((r.setPower p).setPower q).b0 = (r.setPower q).b0 := by
    apply BitVec.eq_of_toNat_eq
    simp only [setPower_b0]
    omega
  exact congrArg (fun b => { r with b0 := b }) hb

/-- The later write of MODE counts. -/
@[simp] theorem setMode_setMode (r : StateReg) (m n : BitVec 3) : (r.setMode m).setMode n = r.setMode n := by
  have hb : ((r.setMode m).setMode n).b0 = (r.setMode n).b0 := by
    apply BitVec.eq_of_toNat_eq
    simp only [setMode_b0]
    omega
  exact congrArg (fun b => { r with b0 := b }) hb

/-- The later write of FAN counts. -/
@[simp] theorem setFan_setFan (r : StateReg) (f g : BitVec 4) : (r.setFan f).setFan g = r.setFan g := by
  have hb : ((r.setFan f).setFan g).b0 = (r.setFan g).b0 := by
    apply BitVec.eq_of_toNat_eq
    simp only [setFan_b0]
    omega
  exact congrArg (fun b => { r with b0 := b }) hb

/-- The later write of CHECKSUM counts. -/
@[simp] theorem setChecksum_setChecksum (r : StateReg) (c d : BitVec 4) :
    (r.setChecksum c).setChecksum d = r.setChecksum d :=
  congrArg (fun b => { r with b7 := d ++ b }) (lowNibble_setChecksum r c)

/-- The checksum as written does not read CHECKSUM (R82). -/
@[simp] theorem csumAsWritten_setChecksum (r : StateReg) (c : BitVec 4) :
    csum .asWritten (r.setChecksum c) = csum .asWritten r := by
  apply BitVec.eq_of_toNat_eq
  rw [csumAsWritten_toNat, csumAsWritten_toNat, ← lowNibble_toNat (r.setChecksum c).b7, lowNibble_setChecksum,
    lowNibble_toNat]
  rfl

/-- The register as one word, as a number (R43). -/
theorem toWord_toNat (r : StateReg) :
    r.toWord.toNat = r.b0.toNat * 2 ^ 56 + r.b1.toNat * 2 ^ 48 + r.b2.toNat * 2 ^ 40 + r.b3.toNat * 2 ^ 32
      + r.b4.toNat * 2 ^ 24 + r.b5.toNat * 2 ^ 16 + r.b6.toNat * 2 ^ 8 + r.b7.toNat := by
  simp only [toWord, toNat_append_add]
  omega

/-- Where byte `i` stands in the word (R43). -/
theorem toWord_byte (r : StateReg) {i : Nat} {b : Byte} (h : r.bytes[i]? = some b) :
    r.toWord.toNat / 2 ^ (56 - 8 * i) % 256 = b.toNat := by
  have hi : i < 8 := (List.getElem?_eq_some_iff.1 h).1
  rw [toWord_toNat]
  interval_cases i <;> obtain rfl := Option.some.inj h <;> omega

end StateReg

/-! ### The register commands -/

/-- `RESULT` after a command that is not a transmit command (R70 to R83): `r` is the State Register after the command,
`v` is `RESULT` before it. -/
def resultFrom (r : StateReg) (v : Word64) : Instr → Word64
  | .getpwr => r.power.setWidth 64
  | .getmode => r.mode.setWidth 64
  | .getfan => r.fan.setWidth 64
  | .gettemp => (celsius r).setWidth 64
  | .getvane => r.vane.setWidth 64
  | .rawrd => r.toWord
  | .reset | .setpwr _ | .setmode _ | .setfan _ | .settemp _ | .setvane _ | .cksum => v
  | .send _ | .sendbuf _ _ | .sendpkd _ _ => v

/-- The whole effect of a command that is not a transmit command. -/
theorem exec_register_eq (i : Instr) (s : State) (h : isTransmit i = false) :
    exec i s = .next ((s.setSr (registerAfter s.params s.sr i)).setResult
      (resultFrom (registerAfter s.params s.sr i) s.result i)) := by
  cases i with
  | send | sendbuf | sendpkd => cases h
  | _ => rfl

/-- Settles O19: each field reads as it was last written, and each setter's value is known as a number. -/
theorem getterAfterSetter : Obligations.GetterAfterSetter := by
  intro s imm
  refine ⟨⟨_, _, rfl, rfl, ?_⟩, ⟨_, _, rfl, rfl, ?_⟩, ⟨_, _, rfl, rfl, ?_⟩, ⟨_, _, rfl, rfl, ?_⟩,
    ⟨_, _, rfl, rfl, ?_⟩⟩ <;>
    rw [State.setResult_result, State.setSr_sr, BitVec.toNat_setWidth_of_le (by decide)]
  · rw [StateReg.power_setPower, powerValue_toNat]
  · rw [StateReg.mode_setMode, modeValue_toNat]
  · rw [StateReg.fan_setFan, fanValue_toNat]
  · rw [StateReg.celsius_setTemp_toNat, tempValue_toNat]
    omega
  · exact vaneValue_toNat imm

/-- Settles O22: RAWRD is CKSUM's write and then the register as one word. -/
theorem rawrdReturnsFreshBytes : Obligations.RawrdReturnsFreshBytes :=
  fun _ => ⟨_, _, rfl, rfl, rfl, fun _ _ h => StateReg.toWord_byte _ h⟩

/-- A register command writes the State Register the same way twice, CKSUM and RAWRD as written only (R48). -/
theorem registerAfter_idem (i : Instr) (p : Params) (r : StateReg)
    (h : p.variant = .asWritten ∨ (i ≠ .cksum ∧ i ≠ .rawrd)) (hi : isTransmit i = false) :
    registerAfter p (registerAfter p r i) i = registerAfter p r i := by
  cases i with
  | setpwr => exact StateReg.setPower_setPower _ _ _
  | setmode => exact StateReg.setMode_setMode _ _ _
  | setfan => exact StateReg.setFan_setFan _ _ _
  | cksum | rawrd =>
    have hv : p.variant = .asWritten := by simpa using h
    simp [registerAfter, hv]
  | send => cases hi
  | _ => rfl

/-- `RESULT` comes from the register after the command, or is kept, so a second time it is the same. -/
theorem resultFrom_idem (i : Instr) (r : StateReg) (v : Word64) :
    resultFrom r (resultFrom r v i) i = resultFrom r v i := by
  cases i <;> rfl

/-- Settles O25: the register, and `RESULT` read from it, come out the same the second time. -/
theorem registerCommandsAreIdempotent : Obligations.RegisterCommandsAreIdempotent := by
  intro s i hi hv
  have hr := registerAfter_idem i s.params s.sr hv hi
  refine ⟨_, exec_register_eq i s hi, (exec_register_eq i _ hi).trans ?_⟩
  simp only [State.setResult_sr, State.setResult_params, State.setResult_result, State.setSr_sr, State.setSr_params, hr,
    resultFrom_idem]
  rfl

/-! ### SENDPKD of what RAWRD returned -/

/-- The bits of a concatenation (R42, R43). -/
theorem msbFirst_append {m n : Nat} (x : BitVec m) (y : BitVec n) : msbFirst (x ++ y) = msbFirst x ++ msbFirst y := by
  rw [msbFirst, List.range_add, List.map_append, List.map_map]
  congr 1
  · refine List.map_congr_left fun k hk => ?_
    rw [BitVec.getMsbD_append, if_neg (Nat.not_le.2 (List.mem_range.1 hk))]
  · refine List.map_congr_left fun k _ => ?_
    rw [Function.comp_apply, BitVec.getMsbD_append, if_pos (Nat.le_add_right m k), Nat.add_sub_cancel_left]

/-- Of a whole word, R92's bits are R42's. -/
theorem packedBits_eq_msbFirst (d : Word64) : packedBits 64 d = msbFirst d := by
  refine List.map_congr_left fun k hk => ?_
  rw [BitVec.getMsbD, decide_eq_true (List.mem_range.1 hk), Bool.true_and]

/-- The State Register's bytes and its word are the same bits (R43, D26). -/
theorem byteBits_bytes (r : StateReg) : byteBits r.bytes = packedBits 64 r.toWord := by
  rw [packedBits_eq_msbFirst, StateReg.toWord]
  simp only [msbFirst_append, StateReg.bytes, byteBits, List.flatMap_cons, List.flatMap_nil, List.append_nil,
    List.append_assoc]

/-- SENDPKD with the fixed total of 64 bits starts the burst of `DATA_IN`'s bits, split in the middle (R88). -/
theorem exec_sendpkd_64 {s : State} (h : s.params.packedBits.val = 64) (r : Word16) :
    exec (.sendpkd 64 r) s = .next (s.startBurst (packedBits 64 s.dataIn) 32 r) := by
  have hguard : packedGuard s.params 64 := h.symm
  show execSendpkd 64 r s = _
  rw [execSendpkd, if_pos hguard, h]

/-- Settles O35: both bursts start from the register with its fresh checksum, whose bytes and word are the same bits. -/
theorem rawrdThenSendpkdReproducesSend : Obligations.RawrdThenSendpkdReproducesSend := by
  intro s r h
  have hpkd := exec_sendpkd_64 (s := (s.refreshChecksum.setResult s.refreshChecksum.sr.toWord).setDataIn
    s.refreshChecksum.sr.toWord) h r
  refine ⟨_, _, _, rfl, hpkd, rfl, ?_, rfl, rfl, rfl⟩
  rw [State.startBurst_bits, State.startBurst_bits, byteBits_bytes]
  rfl

/-! ### A burst and the host -/

/-- A transition reads neither the State Register nor the host's buffer nor `DATA_IN` (R51, R106). -/
theorem State.advance_of_inputs (s : State) (r : StateReg) (m : Memory) (d : Word64) :
    ({ s with sr := r, hb := m, dataIn := d } : State).advance = { s.advance with sr := r, hb := m, dataIn := d } := by
  cases hst : s.st with
  | idle => simp only [advance, hst]
  | car | hm | d1m | fm | gm | d2m | tm =>
    simp only [advance, hst]
    rfl
  | hs | d1s | fs | gs | d2s | ts =>
    simp only [advance, hst]
    split_ifs <;> rfl

/-- Settles O43: a core step of a burst is the serializer's transition. -/
theorem burstIsFixedAtAcceptance : Obligations.BurstIsFixedAtAcceptance := by
  intro s t r m d hb ht h
  obtain rfl : s.popTurn.advance = t := Host.Outcome.next.inj ((step_of_busy hb ht).symm.trans h)
  rw [← State.advance_of_inputs]
  exact step_of_busy (s := { s with sr := r, hb := m, dataIn := d }) hb ht

/-- A host write to a byte that exists (R40, R137). -/
theorem hostWrite_of_lt {s : State} {i : Word16} (h : i.toNat < s.params.hbSize.val) (b : Byte) :
    hostWrite s i b = .next (s.setHb (Memory.write s.hb i.toNat b)) := if_pos h

/-- Every byte after a write to one that exists, in a canonical buffer. -/
theorem memRead_setHb_write {s : State} (hwf : Memory.wf s.hb) {i : Nat} (hi : i < s.params.hbSize.val) (b : Byte)
    (a : Nat) : memRead (s.setHb (Memory.write s.hb i b)) a = if a = i then some b else memRead s a := by
  unfold memRead
  rw [State.setHb_params, State.setHb_hb, Memory.read_write _ _ _ _ hwf.1]
  by_cases ha : a = i
  · rw [if_pos ha, if_pos ha, if_pos (ha ▸ hi)]
  · rw [if_neg ha, if_neg ha]

/-- Settles O48: the host's move is one write of the buffer. -/
theorem hostWriteIsReadBack : Obligations.HostWriteIsReadBack := by
  intro s i b hwf ht hi
  have hread := memRead_setHb_write (s := s.popTurn) hwf hi b
  exact ⟨_, (step_of_nextTurn ht).trans (hostWrite_of_lt (s := s.popTurn) hi b), (hread _).trans (if_pos rfl),
    fun a ha => (hread a).trans (if_neg ha), rfl⟩

end Sys2Proof.Machine
end

section
/-! SUPPORT. Packed words and the bits a command uses; which words decode to a command; the obligations about the decoder
and the encoder (R53 to R62, R66). -/

namespace Sys2Proof

open Machine (toNat_append_add toNat_extract)
open Laws.TableMatch (packWord_masked)

/-! ### Packed words -/

/-- OPC as arithmetic (R54). -/
theorem opc_toNat (w : Word64) : (opc w).toNat = w.toNat / 2 ^ 60 := by
  have := w.isLt
  simp only [opc, toNat_extract]
  omega

/-- A word that is not reserved is its four other fields laid out (R53). -/
theorem packWord_fields {w : Word64} (h : wellFormedWord w) : packWord (opc w) (imm8 w) (cnt16 w) (rep16 w) = w := by
  obtain ⟨h0, h1⟩ := h
  apply BitVec.eq_of_toNat_eq
  have hw := w.isLt
  have h0' := congrArg BitVec.toNat h0
  have h1' := congrArg BitVec.toNat h1
  simp only [rsv0, rsv1, toNat_extract, BitVec.toNat_ofNat] at h0' h1'
  simp only [packWord_toNat, opc, imm8, cnt16, rep16, toNat_extract]
  omega

/-- A packed word has each field at a place of its own. -/
theorem packWord_inj {o o' : BitVec 4} {imm imm' : Byte} {cnt cnt' rep rep' : Word16} :
    packWord o imm cnt rep = packWord o' imm' cnt' rep' ↔ o = o' ∧ imm = imm' ∧ cnt = cnt' ∧ rep = rep' := by
  constructor
  · intro h
    exact ⟨by simpa using congrArg opc h, by simpa using congrArg imm8 h, by simpa using congrArg cnt16 h,
      by simpa using congrArg rep16 h⟩
  · rintro ⟨rfl, rfl, rfl, rfl⟩
    rfl

/-- A command's word is not reserved. -/
theorem wellFormedWord_encode (i : Instr) : wellFormedWord (encode i) :=
  ⟨rsv0_packWord _ _ _ _, rsv1_packWord _ _ _ _⟩

/-! ### The bits a command uses -/

/-- A mask that keeps OPC and the reserved fields acts on the operand fields one by one. -/
theorem packWord_and (o : BitVec 4) (imm a : Byte) (cnt rep b c : Word16) :
    packWord o imm cnt rep &&& (BitVec.allOnes 4 ++ BitVec.allOnes 4 ++ a ++ b ++ c ++ BitVec.allOnes 16) =
      packWord o (imm &&& a) (cnt &&& b) (rep &&& c) := by
  show (o ++ 0#4 ++ imm ++ cnt ++ rep ++ 0#16 : BitVec (4 + 4 + 8 + 16 + 16 + 16)) &&&
      (BitVec.allOnes 4 ++ BitVec.allOnes 4 ++ a ++ b ++ c ++ BitVec.allOnes 16) = _
  simp only [BitVec.and_append, BitVec.and_allOnes]
  rfl

/-- The used bits of a setter (R59). -/
theorem packWord_and_setterBits (o : BitVec 4) (imm : Byte) (cnt rep : Word16) :
    packWord o imm cnt rep &&& 0xFFFF00000000FFFF = packWord o imm 0 0 := by
  have h := packWord_and o imm (BitVec.allOnes 8) cnt rep 0#16 0#16
  rwa [BitVec.and_allOnes, BitVec.and_zero, BitVec.and_zero] at h

/-- The used bits of SEND (R59). -/
theorem packWord_and_sendBits (o : BitVec 4) (imm : Byte) (cnt rep : Word16) :
    packWord o imm cnt rep &&& 0xFF000000FFFFFFFF = packWord o 0 0 rep := by
  have h := packWord_and o imm 0#8 cnt rep 0#16 (BitVec.allOnes 16)
  rwa [BitVec.and_allOnes, BitVec.and_zero, BitVec.and_zero] at h

/-- The used bits of SENDBUF and SENDPKD (R59). -/
theorem packWord_and_countBits (o : BitVec 4) (imm : Byte) (cnt rep : Word16) :
    packWord o imm cnt rep &&& 0xFF00FFFFFFFFFFFF = packWord o 0 cnt rep := by
  have h := packWord_and o imm 0#8 cnt rep (BitVec.allOnes 16) (BitVec.allOnes 16)
  rwa [BitVec.and_allOnes, BitVec.and_allOnes, BitVec.and_zero] at h

/-- Every command uses both reserved fields, so the bits it does not use never make a word reserved (R59, R61). -/
theorem wellFormedWord_and_usedBits {w : Word64} {i : Instr} :
    wellFormedWord (w &&& usedBits i) ↔ wellFormedWord w := by
  have hmask : rsv0 (usedBits i) = BitVec.allOnes 4 ∧ rsv1 (usedBits i) = BitVec.allOnes 16 := by
    unfold usedBits
    split <;> decide
  have h0 : rsv0 (w &&& usedBits i) = rsv0 w := by
    rw [rsv0, BitVec.extractLsb'_and, ← rsv0, ← rsv0, hmask.1, BitVec.and_allOnes]
  have h1 : rsv1 (w &&& usedBits i) = rsv1 w := by
    rw [rsv1, BitVec.extractLsb'_and, ← rsv1, ← rsv1, hmask.2, BitVec.and_allOnes]
  rw [wellFormedWord, h0, h1]

/-- A command's word is 0 in the fields that the command does not use. -/
theorem encode_and_usedBits (i : Instr) : encode i &&& usedBits i = encode i := by
  cases i with
  | setpwr | setmode | setfan | settemp | setvane => exact packWord_and_setterBits _ _ _ _
  | send => exact packWord_and_sendBits _ _ _ _
  | sendbuf | sendpkd => exact packWord_and_countBits _ _ _ _
  | _ => exact packWord_masked _ _ _ _

/-! ### Which words decode to a command -/

/-- Every packed word decodes to a command of its opcode, whose encoding is the bits that the command uses (R54, R59,
R60). -/
theorem decodeOpcode_packWord (o : BitVec 4) (imm : Byte) (cnt rep : Word16) :
    ∃ i, decodeOpcode (packWord o imm cnt rep) = .ok i ∧ opcodeOf i = o ∧
      packWord o imm cnt rep &&& usedBits i = encode i := by
  have hlt := o.isLt
  have of_opcode {i : Instr} (h : o.toNat = (opcodeOf i).toNat)
      (hbits : packWord o imm cnt rep &&& usedBits i = packWord o (immOf i) (cntOf i) (repOf i)) :
      ∃ j, (.ok i : Except Reject Instr) = .ok j ∧ opcodeOf j = o ∧
        packWord o imm cnt rep &&& usedBits j = encode j := by
    obtain rfl := BitVec.eq_of_toNat_eq h
    exact ⟨i, rfl, rfl, hbits⟩
  simp only [decodeOpcode, opc_packWord, imm8_packWord, cnt16_packWord, rep16_packWord]
  split
  case h_2 | h_4 | h_6 | h_8 | h_10 => exact of_opcode ‹_› (packWord_and_setterBits _ _ _ _)
  case h_14 => exact of_opcode ‹_› (packWord_and_sendBits _ _ _ _)
  case h_15 | h_16 => exact of_opcode ‹_› (packWord_and_countBits _ _ _ _)
  case h_17 =>
    simp only [imp_false] at *
    omega
  all_goals exact of_opcode ‹_› (packWord_masked _ _ _ _)

/-- The same of any word that is not reserved. -/
theorem decodeWord_total {w : Word64} (h : wellFormedWord w) :
    ∃ i, decodeWord w = .ok i ∧ opcodeOf i = opc w ∧ w &&& usedBits i = encode i := by
  have hi := decodeOpcode_packWord (opc w) (imm8 w) (cnt16 w) (rep16 w)
  rwa [packWord_fields h, ← decodeWord_of_wellFormed h] at hi

/-- The words of a command are those whose used bits are its encoding (R59, R62). -/
theorem decodeWord_eq_ok_iff {w : Word64} {i : Instr} : decodeWord w = .ok i ↔ w &&& usedBits i = encode i := by
  constructor
  · intro h
    obtain ⟨h0, h1, -⟩ := decodeWord_ok h
    obtain ⟨j, hj, -, hbits⟩ := decodeWord_total ⟨h0, h1⟩
    obtain rfl : j = i := Except.ok.inj (hj.symm.trans h)
    exact hbits
  · intro h
    have hw : wellFormedWord w := wellFormedWord_and_usedBits.1 (h ▸ wellFormedWord_encode i)
    rw [← packWord_fields hw] at h
    rw [decodeWord_of_wellFormed hw, decodeOpcode]
    cases i with
    | setpwr | setmode | setfan | settemp | setvane =>
      obtain ⟨ho, himm, -⟩ := packWord_inj.1 ((packWord_and_setterBits _ _ _ _).symm.trans h)
      rw [ho, himm]
      rfl
    | send =>
      obtain ⟨ho, -, -, hrep⟩ := packWord_inj.1 ((packWord_and_sendBits _ _ _ _).symm.trans h)
      rw [ho, hrep]
      rfl
    | sendbuf | sendpkd =>
      obtain ⟨ho, -, hcnt, hrep⟩ := packWord_inj.1 ((packWord_and_countBits _ _ _ _).symm.trans h)
      rw [ho, hcnt, hrep]
      rfl
    | _ =>
      obtain ⟨ho, -⟩ := packWord_inj.1 ((packWord_masked _ _ _ _).symm.trans h)
      rw [ho]
      rfl

/-- Settles O1: a command's word is its own used bits. -/
theorem decodeOfEncodeIsTheCommand : Obligations.DecodeOfEncodeIsTheCommand :=
  fun i => decodeWord_eq_ok_iff.2 (encode_and_usedBits i)

/-- Settles O2: the decoder's cases are the 16 values of the field. -/
theorem everyOpcodeIsAssigned : Obligations.EveryOpcodeIsAssigned := by
  intro w h0 h1
  obtain ⟨i, hi, hopc, -⟩ := decodeWord_total ⟨h0, h1⟩
  exact ⟨i, hi, by rw [hopc, opc_toNat]⟩

/-- Settles O3: decoding to `i` is a property of the bits `i` uses. -/
theorem unusedFieldsAreIgnored : Obligations.UnusedFieldsAreIgnored := by
  intro w w' i h hbits
  have hw' : w' &&& usedBits i = encode i := hbits.trans (decodeWord_eq_ok_iff.1 h)
  exact ⟨decodeWord_eq_ok_iff.2 hw', hw'.symm⟩

/-- Settles O4, word by word. -/
theorem writtenOutWordsDecode : Obligations.WrittenOutWordsDecode :=
  ⟨decode_reset_word, decode_setpwr_word, decode_setfan_word, decode_send_word, by decide, by decide, by decide,
    by decide, by decide, by decide, by decide⟩

end Sys2Proof
end

section
/-! SUPPORT. What a statement assembles to and what a reserved word does; the obligations about the assembler (R61, R64,
R65). -/

namespace Sys2Proof.Machine

/-! ### Words written as an opcode with operands ORed in -/

/-- A number ORed in below the bits of a word is added to it. -/
theorem or_shiftLeft_toNat {w : Word64} {a k lo n : Nat} (hw : w.toNat = 2 ^ k * a) (hn : n * 2 ^ lo < 2 ^ k)
    (hk : 2 ^ k ≤ 2 ^ 64) : (w ||| BitVec.ofNat 64 n <<< lo).toNat = w.toNat + n * 2 ^ lo := by
  have hle : n ≤ n * 2 ^ lo := Nat.le_mul_of_pos_right n (Nat.two_pow_pos lo)
  have hfield : (BitVec.ofNat 64 n <<< lo).toNat = n * 2 ^ lo := by
    rw [BitVec.toNat_shiftLeft, BitVec.toNat_ofNat, Nat.mod_eq_of_lt (show n < 2 ^ 64 by omega), Nat.shiftLeft_eq,
      Nat.mod_eq_of_lt (show n * 2 ^ lo < 2 ^ 64 by omega)]
  rw [BitVec.toNat_or, hfield, hw, Nat.two_pow_add_eq_or_of_lt hn]

/-- A word with no operand, as a number. -/
theorem packWord_opcode_toNat (o : BitVec 4) : (packWord o 0#8 0#16 0#16).toNat = 2 ^ 60 * o.toNat := by
  simp only [packWord_toNat, BitVec.toNat_ofNat]
  omega

/-- `IMM8` ORed in (R55). -/
theorem packWord_or_imm (o : BitVec 4) {v : Nat} (hv : v ≤ 255) :
    packWord o 0#8 0#16 0#16 ||| BitVec.ofNat 64 v <<< 48 = packWord o (immField v) 0#16 0#16 := by
  apply BitVec.eq_of_toNat_eq
  rw [or_shiftLeft_toNat (packWord_opcode_toNat o) (by omega) (by decide)]
  simp only [packWord_toNat, immField, BitVec.toNat_ofNat]
  omega

/-- `CNT16` ORed in (R56). -/
theorem packWord_or_cnt (o : BitVec 4) {n : Nat} (hn : n ≤ 65535) :
    packWord o 0#8 0#16 0#16 ||| BitVec.ofNat 64 n <<< 32 = packWord o 0#8 (field16 n) 0#16 := by
  apply BitVec.eq_of_toNat_eq
  rw [or_shiftLeft_toNat (packWord_opcode_toNat o) (by omega) (by decide)]
  simp only [packWord_toNat, field16, BitVec.toNat_ofNat]
  omega

/-- `REP16` ORed in (R57). -/
theorem packWord_or_rep (o : BitVec 4) (cnt : Word16) {r : Nat} (hr : r ≤ 65535) :
    packWord o 0#8 cnt 0#16 ||| BitVec.ofNat 64 r <<< 16 = packWord o 0#8 cnt (field16 r) := by
  have hlow : (packWord o 0#8 cnt 0#16).toNat = 2 ^ 32 * (o.toNat * 2 ^ 28 + cnt.toNat) := by
    simp only [packWord_toNat, BitVec.toNat_ofNat]
    omega
  apply BitVec.eq_of_toNat_eq
  rw [or_shiftLeft_toNat hlow (by omega) (by decide)]
  simp only [packWord_toNat, field16, BitVec.toNat_ofNat]
  omega

/-- `CNT16` and `REP16` ORed in. -/
theorem packWord_or_cnt_rep (o : BitVec 4) {n r : Nat} (hn : n ≤ 65535) (hr : r ≤ 65535) :
    packWord o 0#8 0#16 0#16 ||| BitVec.ofNat 64 n <<< 32 ||| BitVec.ofNat 64 r <<< 16 =
      packWord o 0#8 (field16 n) (field16 r) := by
  rw [packWord_or_cnt o hn, packWord_or_rep o _ hr]

/-! ### Statements -/

/-- A statement in range assembles to its command's word. -/
theorem assemble_of_wf {x : Stmt} {w : Word64} (hx : x.wf = true) (hw : w = encode (expand x)) :
    assemble x = some w := by
  rw [assemble, if_pos hx, hw]

/-- A statement with an operand out of range is an assembler error. -/
theorem assemble_of_not_wf {x : Stmt} (hx : x.wf = false) : assemble x = none := by
  simp [assemble, hx]

/-- The word of a statement in range decodes to the statement's command. -/
theorem assemblesTo_of_wf {x : Stmt} {w : Word64} (hx : x.wf = true) (hw : w = encode (expand x)) :
    assemblesTo x w (expand x) := by
  have h := wellFormedWord_encode (expand x)
  subst hw
  exact ⟨assemble_of_wf hx rfl, h.1, h.2, decodeOfEncodeIsTheCommand _⟩

/-- Settles O5: each word is the encoding of the statement's command, which decodes back. -/
theorem assembledWordsDecode : Obligations.AssembledWordsDecode := by
  refine ⟨?_, ?_, ?_, ?_, ?_, ?_⟩
  · intro v hv
    have hwf := decide_eq_true hv
    exact ⟨assemblesTo_of_wf hwf (packWord_or_imm 0x1 hv), assemblesTo_of_wf hwf (packWord_or_imm 0x3 hv),
      assemblesTo_of_wf hwf (packWord_or_imm 0x5 hv), assemblesTo_of_wf hwf (packWord_or_imm 0x7 hv),
      assemblesTo_of_wf hwf (packWord_or_imm 0x9 hv)⟩
  · intro v hv
    have hwf := decide_eq_false (Nat.not_le.2 hv)
    exact ⟨assemble_of_not_wf hwf, assemble_of_not_wf hwf, assemble_of_not_wf hwf, assemble_of_not_wf hwf,
      assemble_of_not_wf hwf⟩
  · intro r hr
    refine ⟨assemblesTo_of_wf (decide_eq_true hr) (packWord_or_rep 0xD 0 hr), fun n hn => ?_⟩
    have hwf : (decide (n ≤ 65535) && decide (r ≤ 65535)) = true := by simp [hn, hr]
    exact ⟨assemblesTo_of_wf hwf (packWord_or_cnt_rep 0xE hn hr),
      assemblesTo_of_wf hwf (packWord_or_cnt_rep 0xF hn hr)⟩
  · intro r hr
    have hwf := decide_eq_false (Nat.not_le.2 hr)
    exact ⟨assemble_of_not_wf hwf, assemble_of_not_wf hwf, assemble_of_not_wf hwf⟩
  · intro n r h
    have hwf : (decide (n ≤ 65535) && decide (r ≤ 65535)) = false := by
      simp only [Bool.and_eq_false_iff, decide_eq_false_iff_not, Nat.not_le]
      exact h
    exact ⟨assemble_of_not_wf hwf, assemble_of_not_wf hwf⟩
  · with_reducible and_intros
    all_goals exact assemblesTo_of_wf rfl (by decide)

/-- Settles O6: each pseudo-instruction's word is the encoding of the command it stands for. -/
theorem pseudoInstructionWords : Obligations.PseudoInstructionWords := by
  refine ⟨assemble_of_wf rfl (by decide), assemble_of_wf rfl (by decide), assemble_of_wf rfl (by decide), ?_⟩
  intro r hr
  have hwf := decide_eq_true hr
  exact ⟨assemble_of_wf hwf (packWord_or_rep 0xE 8 hr), assemble_of_wf hwf (packWord_or_rep 0xF 64 hr)⟩

/-- Settles O57: the assembler evaluated on each source text. -/
theorem sourceLinesAssemble : Obligations.SourceLinesAssemble := by
  unfold Obligations.SourceLinesAssemble
  and_intros <;> decide

/-! ### Reserved words -/

/-- The acceptance of a reserved word, as the step performs it (R61). -/
theorem step_of_reserved {s : State} {w : Word64} {ws : List Word64} (hb : s.busy = false) (ht : nextTurn s = .core)
    (hc : s.cmds = w :: ws) (hw : ¬wellFormedWord w) : step s = ignoreReserved w s.popTurn.takeCommand := by
  obtain ⟨e, hd⟩ := decodeWord_reserved hw
  simp [step_of_nextTurn ht, move, coreMove, ready, hb, hc, accept, hd]

/-- Settles O8: what is left of the step is the policy's choice. -/
theorem reservedWordsAreIgnored : Obligations.ReservedWordsAreIgnored := by
  intro s w ws hb ht hc hw
  rw [step_of_reserved hb ht hc hw, ignoreReserved, State.takeCommand_params, State.popTurn_params]
  constructor <;> intro hpolicy <;> rw [hpolicy]
  simp only [State.takeCommand, State.popTurn, hc, List.tail_cons]

end Sys2Proof.Machine
end

section
/-! SUPPORT. What the writers of the State Register's fields keep and how the checksum answers to them; the obligations about
the State Register commands (R67 to R83). -/

namespace Sys2Proof.Machine

/-! ### The State Register's fields -/

/-- POWER's bit as SETPWR writes it (R69). -/
theorem powerValue_getLsbD (imm : Byte) : (powerValue imm).getLsbD 0 = decide (imm.toNat ≠ 0) := by
  rw [BitVec.getLsbD, powerValue_toNat]
  by_cases h : imm.toNat = 0 <;> simp [h]

namespace StateReg

/-- POWER is bit 3 of byte 0 (R18). -/
theorem setPower_b0_bit_three (r : StateReg) (p : BitVec 1) : (r.setPower p).b0.getLsbD 3 = p.getLsbD 0 := by
  simp only [setPower, BitVec.getLsbD_append]
  rfl

/-- POWER's writer keeps the other bits of byte 0. -/
theorem setPower_b0_other_bit (r : StateReg) (p : BitVec 1) {k : Nat} (hk : k ≠ 3) :
    (r.setPower p).b0.getLsbD k = r.b0.getLsbD k := by
  simp only [setPower, BitVec.getLsbD_append, BitVec.getLsbD_extractLsb']
  by_cases hlow : k < 3
  · simp [hlow]
  by_cases htop : 8 ≤ k
  · rw [BitVec.getLsbD_of_ge r.b0 k htop]
    simp [hlow, show ¬k - 3 < 1 by omega, show 4 ≤ k - 3 - 1 by omega]
  · simp [hlow, show ¬k - 3 < 1 by omega, show k - 3 - 1 < 4 by omega, show 4 + (k - 3 - 1) = k by omega]

/-- MODE's writer keeps the five bits above MODE. -/
theorem setMode_b0_div (r : StateReg) (m : BitVec 3) : (r.setMode m).b0.toNat / 8 = r.b0.toNat / 8 := by
  rw [setMode_b0]
  omega

/-- FAN's writer keeps the low nibble of byte 0. -/
theorem setFan_b0_mod (r : StateReg) (f : BitVec 4) : (r.setFan f).b0.toNat % 16 = r.b0.toNat % 16 := by
  rw [setFan_b0]
  omega

/-- CHECKSUM's writer keeps the low nibble of byte 7. -/
theorem setChecksum_b7_mod (r : StateReg) (c : BitVec 4) : (r.setChecksum c).b7.toNat % 16 = r.b7.toNat % 16 := by
  rw [setChecksum_b7]
  omega

@[simp] theorem checksum_setChecksum (r : StateReg) (c : BitVec 4) : (r.setChecksum c).checksum = c := by
  apply BitVec.eq_of_toNat_eq
  rw [checksum_toNat, setChecksum_b7]
  omega

/-- CHECKSUM after its writer, as a number. -/
theorem setChecksum_b7_div (r : StateReg) (c : BitVec 4) : (r.setChecksum c).b7.toNat / 16 = c.toNat := by
  rw [← checksum_toNat, checksum_setChecksum]

/-- What GETTEMP reads (R76). -/
theorem celsius_toNat (r : StateReg) : (celsius r).toNat = (r.b1.toNat + 16) % 256 := rfl

end StateReg

/-! ### The checksum -/

/-- FAN is no input of the checksum (R82). -/
@[simp] theorem csum_setFan (v : ChecksumVariant) (r : StateReg) (f : BitVec 4) : csum v (r.setFan f) = csum v r :=
  csum_congr v _ _ (r.setFan_b0_mod f) rfl rfl rfl rfl rfl rfl

/-- VANE is no input of the checksum (R77, R82). -/
@[simp] theorem csum_setVane (v : ChecksumVariant) (r : StateReg) (b : Byte) : csum v (r.setVane b) = csum v r :=
  csum_congr v _ _ rfl rfl rfl rfl rfl rfl rfl

/-- Of byte 0 the checksum tells every two low nibbles apart, in either variant: the other terms are the same. -/
theorem csum_b0_inj {v : ChecksumVariant} {r : StateReg} {b : Byte} (h : csum v { r with b0 := b } = csum v r) :
    b.toNat % 16 = r.b0.toNat % 16 := by
  have hsum := congrArg BitVec.toNat h
  have hmod : b.toNat % 16 ≡ r.b0.toNat % 16 [MOD 16] := by
    cases v
    · simp only [csumAsWritten_toNat, Nat.add_assoc] at hsum
      exact .add_right_cancel' _ (.add_left_cancel' _ hsum)
    · simp only [csumHighNibble_toNat, Nat.add_assoc] at hsum
      exact .add_right_cancel' _ (.add_left_cancel' _ hsum)
  rwa [Nat.ModEq, Nat.mod_mod, Nat.mod_mod] at hmod

/-- A change of POWER changes the checksum (R69). -/
theorem power_eq_of_csum_setPower {v : ChecksumVariant} {r : StateReg} {p : BitVec 1}
    (h : csum v (r.setPower p) = csum v r) : p = r.power := by
  have hb : (r.setPower p).b0.toNat % 16 = r.b0.toNat % 16 := csum_b0_inj h
  rw [StateReg.setPower_b0] at hb
  apply BitVec.eq_of_toNat_eq
  rw [StateReg.power_toNat]
  omega

/-- With high nibbles, the checksum reads CHECKSUM and adds the other terms to it (R81). -/
theorem csumHighNibble_setChecksum_toNat (r : StateReg) (c : BitVec 4) :
    (csum .highNibble (r.setChecksum c)).toNat = (c.toNat + (0x0A + r.b0.toNat % 16 + r.b1.toNat % 16 + r.b2.toNat % 16
      + r.b3.toNat % 16 + r.b5.toNat / 16 + r.b6.toNat / 16) % 16) % 16 := by
  rw [csumHighNibble_toNat, StateReg.setChecksum_b7_div, Nat.add_mod_mod, Nat.add_comm c.toNat]
  rfl

/-! ### The commands -/

/-- The opcode stands in bits 63 to 60 of a command's word (R53, R54). -/
theorem encode_div (i : Instr) : (encode i).toNat / 2 ^ 60 = (opcodeOf i).toNat := by
  rw [← opc_toNat, encode, opc_packWord]

/-- A getter's `RESULT` is its field's number: zero-extension keeps it (R70 to R78). -/
theorem setResult_setWidth_toNat {n : Nat} (hn : n ≤ 64) (s : State) (x : BitVec n) :
    (s.setResult (x.setWidth 64)).result.toNat = x.toNat := BitVec.toNat_setWidth_of_le hn

/-- The getters leave the State Register (R25). -/
theorem registerAfter_getter {i : Instr} (hi : isGetter i = true) (p : Params) (r : StateReg) :
    registerAfter p r i = r := by
  cases i with
  | getpwr | getmode | getfan | gettemp | getvane => rfl
  | _ => cases hi

/-! ### The obligations -/

/-- Settles O12: the bytes RESET writes come from the parameters alone. -/
theorem resetWritesTheKnownGoodDefault : Obligations.ResetWritesTheKnownGoodDefault :=
  fun _ => ⟨_, rfl, rfl, rfl, by decide⟩

/-- Settles O13: the bits of POWER's writer; a checksum that stayed fresh would mean that POWER did not change. -/
theorem setpwrWritesBitThree : Obligations.SetpwrWritesBitThree := by
  intro s imm
  refine ⟨_, rfl, rfl, ?_, fun k hk => StateReg.setPower_b0_other_bit _ _ hk, fun v hbit hfresh hfresh' => ?_,
    encode_div (.setpwr imm)⟩
  · exact (StateReg.setPower_b0_bit_three _ _).trans (powerValue_getLsbD imm)
  · have hcsum : csum v (s.sr.setPower (powerValue imm)) = csum v s.sr := hfresh'.symm.trans (not_not.1 hfresh)
    apply hbit
    rw [State.setSr_sr, StateReg.setPower_b0_bit_three, power_eq_of_csum_setPower hcsum]
    simp [StateReg.power]

/-- Settles O14: MODE reads as it was written, and the bits above it are kept. -/
theorem setmodeCoercesToAuto : Obligations.SetmodeCoercesToAuto := by
  intro s imm
  refine ⟨_, rfl, rfl, ?_, StateReg.setMode_b0_div _ _, encode_div (.setmode imm)⟩
  rw [← StateReg.mode_toNat, State.setSr_sr, StateReg.mode_setMode, modeValue_toNat]

/-- Settles O15: FAN reads as it was written, and the low nibble is kept. -/
theorem setfanClampsToHigh : Obligations.SetfanClampsToHigh := by
  intro s imm
  refine ⟨_, rfl, rfl, ?_, StateReg.setFan_b0_mod _ _, encode_div (.setfan imm)⟩
  rw [← StateReg.fan_toNat, State.setSr_sr, StateReg.fan_setFan, fanValue_toNat]

/-- Settles O16: the clamped temperature is at least 16, so the offset loses nothing. -/
theorem settempClampsAndOffsets : Obligations.SettempClampsAndOffsets := by
  intro s imm
  have htemp := tempValue_toNat imm
  refine ⟨_, rfl, rfl, ?_, encode_div (.settemp imm)⟩
  show (tempValue imm).toNat + 16 = _
  omega

/-- Settles O17: byte 4 is what VANE's writer was given, and the checksum does not read it. -/
theorem setvaneCoercesToAuto : Obligations.SetvaneCoercesToAuto :=
  fun s imm => ⟨_, rfl, rfl, vaneValue_toNat imm, fun v => csum_setVane v s.sr _, encode_div (.setvane imm)⟩

/-- Settles O18: `RESULT` is the field's number, whose range is that of the legal codes;
GETTEMP after SETTEMP is a case of `getterAfterSetter`. -/
theorem gettersReadTheirField : Obligations.GettersReadTheirField := by
  intro s
  have hpwr := (setResult_setWidth_toNat (by decide) s s.sr.power).trans s.sr.power_toNat
  have hmode := (setResult_setWidth_toNat (by decide) s s.sr.mode).trans s.sr.mode_toNat
  have hfan := (setResult_setWidth_toNat (by decide) s s.sr.fan).trans s.sr.fan_toNat
  have htemp := (setResult_setWidth_toNat (by decide) s (celsius s.sr)).trans s.sr.celsius_toNat
  have hvane : (s.setResult (s.sr.vane.setWidth 64)).result.toNat = s.sr.b4.toNat :=
    setResult_setWidth_toNat (by decide) s s.sr.vane
  refine ⟨⟨_, rfl, rfl, hpwr, by decide⟩, ⟨_, rfl, rfl, hmode, fun h => ?_, by decide⟩,
    ⟨_, rfl, rfl, hfan, fun h => ?_, by decide⟩, ⟨_, rfl, rfl, htemp, fun h => ?_, fun x hlo hhi => ?_, by decide⟩,
    ⟨_, rfl, rfl, hvane, fun h => ?_, by decide⟩⟩
  · obtain ⟨hle, -, -, -⟩ := s.sr.legal_iff.1 h
    exact hmode.trans_le hle
  · obtain ⟨-, hle, -, -⟩ := s.sr.legal_iff.1 h
    exact hfan.trans_le hle
  · obtain ⟨-, -, hle, -⟩ := s.sr.legal_iff.1 h
    rw [htemp]
    omega
  · obtain ⟨-, -, -, ⟨u, v, hset, hget, hread⟩, -⟩ := getterAfterSetter s x
    exact ⟨u, v, hset, hget, by omega⟩
  · obtain ⟨-, -, -, hle⟩ := s.sr.legal_iff.1 h
    exact hvane.trans_le hle

/-- Settles O20: CHECKSUM reads as the sum it was written with; as written the sum does not read it, with high
nibbles it does. -/
theorem cksumWritesTheSum : Obligations.CksumWritesTheSum := by
  intro s
  have hsum : s.refreshChecksum.sr.b7.toNat / 16 = (csum s.params.variant s.sr).toNat :=
    StateReg.setChecksum_b7_div _ _
  refine ⟨_, rfl, rfl, StateReg.setChecksum_b7_mod _ _, by decide, fun hv => ⟨by omega, ?_, ?_⟩,
    fun hv => ⟨?_, _, rfl, ?_⟩⟩
  · rw [hsum, hv, csumAsWritten_toNat]
  · obtain ⟨t, ht, ht'⟩ := registerCommandsAreIdempotent s .cksum rfl (.inl hv)
    obtain rfl : s.refreshChecksum = t := Host.Outcome.next.inj ht
    exact ht'
  · rw [hsum, hv, csumHighNibble_toNat]
  · rw [hsum, State.refreshChecksum_sr, StateReg.setChecksum_b7_div, State.refreshChecksum_params,
      State.refreshChecksum_sr, hv, csumHighNibble_setChecksum_toNat]

/-- Settles O21: the sum as written is of these nibbles, and neither FAN's nor VANE's writer touches one. -/
theorem checksumReadsLowNibblesOnly : Obligations.ChecksumReadsLowNibblesOnly := by
  refine ⟨fun q r h0 h1 h2 h3 h5 h6 h7 => ?_,
    fun s imm => ⟨_, _, rfl, rfl, csum_setFan _ _ _, csum_setVane _ _ _⟩⟩
  apply BitVec.eq_of_toNat_eq
  rw [csumAsWritten_toNat, csumAsWritten_toNat, h0, h1, h2, h3, h5, h6, h7]

/-- Settles O23: the value is the known-good register with its checksum, as one word. -/
theorem resetThenRawrdIsFixed : Obligations.ResetThenRawrdIsFixed := by
  intro p
  refine ⟨((StateReg.knownGood p).setChecksum (csum p.variant (StateReg.knownGood p))).toWord, ?_⟩
  rintro s rfl
  exact ⟨_, _, rfl, rfl, rfl⟩

/-- Settles O26: a register command is a write of the State Register and one of `RESULT`. -/
theorem registerCommandFrame : Obligations.RegisterCommandFrame := by
  intro s t i hi h
  refine ⟨fun hg => (exec_sr h).trans (registerAfter_getter hg _ _), exec_result h, ?_⟩
  obtain ⟨r, v, he⟩ := exec_register i s hi
  obtain rfl := Host.Outcome.next.inj (he.symm.trans h)
  exact ⟨rfl, rfl, rfl, rfl, rfl, rfl, rfl, rfl, rfl, rfl, rfl, rfl, fun _ => rfl⟩

end Sys2Proof.Machine
end

section
/-! SUPPORT. The acceptance of the transmit commands: which bit of a snapshot stands where, and the burst each command starts
(R85 to R93, R101). -/

namespace Sys2Proof.Machine

/-! ### Bits of a snapshot -/

/-- Bit `8i + k` of a byte sequence is bit `7 − k` of byte `i` (R91). -/
theorem byteBits_getElem? {bs : List Byte} {i k : Nat} {b : Byte} (hb : bs[i]? = some b) (hk : k < 8) :
    (byteBits bs)[8 * i + k]? = some (b.getLsbD (7 - k)) := by
  induction bs generalizing i with
  | nil => simp at hb
  | cons c bs ih =>
    rw [byteBits_cons]
    cases i with
    | zero =>
      obtain rfl : c = b := by simpa using hb
      rw [List.getElem?_append_left (by simpa using hk)]
      simp [msbFirst, hk, BitVec.getMsbD]
    | succ i =>
      rw [List.getElem?_append_right (by simp; omega), msbFirst_length, show 8 * (i + 1) + k - 8 = 8 * i + k by omega]
      exact ih (by simpa using hb)

/-- Bit `k` of a packed integer of `n` bits is its bit `n − 1 − k` (R92). -/
theorem packedBits_getElem? {n k : Nat} (d : Word64) (hk : k < n) :
    (packedBits n d)[k]? = some (d.getLsbD (n - 1 - k)) := by
  simp [packedBits, hk]

/-! ### SEND -/

/-- The burst SEND starts (R86, R93). -/
theorem exec_send (r : Word16) (s : State) :
    exec (.send r) s = .next (s.refreshChecksum.startBurst (byteBits s.refreshChecksum.sr.bytes) 32 r) := rfl

/-- Settles O27: SEND is CKSUM's write, then a burst of the register's bytes. -/
theorem sendSnapshotsTheStateRegister : Obligations.SendSnapshotsTheStateRegister :=
  fun s r => ⟨_, _, exec_send r s, rfl, rfl, byteBits_length _, fun _ _ _ hk hb => byteBits_getElem? hb hk⟩

/-! ### SENDBUF -/

theorem exec_sendbuf_of_lt {cnt : Word16} (h : cnt.toNat < 8) (r : Word16) (s : State) :
    exec (.sendbuf cnt r) s = .next s :=
  (execSendbuf_eq cnt r s).trans (if_pos h)

/-- The burst SENDBUF starts when its guard passes and its bytes exist (R87). -/
theorem exec_sendbuf_of_le {cnt : Word16} {s : State} (h : 8 ≤ cnt.toNat) (hsize : cnt.toNat ≤ s.params.hbSize.val)
    (r : Word16) : exec (.sendbuf cnt r) s =
      .next (s.startBurst (byteBits ((List.range cnt.toNat).map (Memory.read s.hb))) 32 r) :=
  (execSendbuf_eq cnt r s).trans ((if_neg (Nat.not_lt.2 h)).trans (if_pos hsize))

/-- Settles O28: of the three cases of SENDBUF, the first is the failed guard and the second the start of a burst. -/
theorem sendbufGuard : Obligations.SendbufGuard :=
  fun s _ r => ⟨fun h => exec_sendbuf_of_lt (Nat.lt_succ_of_le h) r s,
    fun h hsize => ⟨_, exec_sendbuf_of_le h hsize r, rfl, rfl⟩⟩

/-- Settles O29: the snapshot is the bits of the bytes read from the host buffer. -/
theorem sendbufSnapshotsTheHostBuffer : Obligations.SendbufSnapshotsTheHostBuffer := by
  intro s cnt r h hsize
  refine ⟨_, exec_sendbuf_of_le h hsize r, rfl, by simp, fun i k hi hk => ?_⟩
  exact byteBits_getElem? (by simp [hi]) hk

/-! ### SENDPKD -/

theorem exec_sendpkd_of_ne {cnt : Word16} {s : State} (h : cnt.toNat ≠ s.params.packedBits.val) (r : Word16) :
    exec (.sendpkd cnt r) s = .next s := if_neg h

/-- The burst SENDPKD starts when its guard passes (R88). -/
theorem exec_sendpkd_of_eq {cnt : Word16} {s : State} (h : cnt.toNat = s.params.packedBits.val) (r : Word16) :
    exec (.sendpkd cnt r) s = .next (s.startBurst (packedBits cnt.toNat s.dataIn) (cnt.toNat / 2) r) := by
  rw [h]
  exact if_pos h

/-- Settles O31: the guard is the equality. -/
theorem sendpkdGuard : Obligations.SendpkdGuard :=
  fun _ _ r => ⟨fun h => exec_sendpkd_of_ne h r, fun h => ⟨_, exec_sendpkd_of_eq h r, rfl, rfl⟩⟩

/-- Settles O32: the snapshot is `DATA_IN`'s bits from the top one down. -/
theorem sendpkdSnapshotsDataIn : Obligations.SendpkdSnapshotsDataIn :=
  fun _ _ r h => ⟨_, exec_sendpkd_of_eq h r, rfl, packedBits_length _ _, fun _ hk => packedBits_getElem? _ hk⟩

/-! ### The two forms on eight bytes -/

/-- The first eight host bytes as a State Register, to reuse its layout as a word (R43). -/
def StateReg.ofBuffer (m : Memory) : StateReg :=
  ⟨Memory.read m 0, Memory.read m 1, Memory.read m 2, Memory.read m 3, Memory.read m 4, Memory.read m 5,
    Memory.read m 6, Memory.read m 7⟩

theorem StateReg.bytes_ofBuffer (m : Memory) : (ofBuffer m).bytes = (List.range 8).map (Memory.read m) := rfl

/-- The word that holds the first eight host bytes, byte 0 on top (R101). -/
theorem StateReg.toWord_ofBuffer {m : Memory} {d : Word64}
    (h : ∀ i, i < 8 → d.toNat / 2 ^ (56 - 8 * i) % 256 = (Memory.read m i).toNat) : (ofBuffer m).toWord = d := by
  apply BitVec.eq_of_toNat_eq
  simp only [toWord_toNat, ofBuffer, ← h 0 (by decide), ← h 1 (by decide), ← h 2 (by decide), ← h 3 (by decide),
    ← h 4 (by decide), ← h 5 (by decide), ← h 6 (by decide), ← h 7 (by decide)]
  omega

/-- Eight host bytes and the word that holds them are the same bits (R101). -/
theorem byteBits_read_eight {m : Memory} {d : Word64}
    (h : ∀ i, i < 8 → d.toNat / 2 ^ (56 - 8 * i) % 256 = (Memory.read m i).toNat) :
    byteBits ((List.range 8).map (Memory.read m)) = packedBits 64 d := by
  rw [← StateReg.bytes_ofBuffer, byteBits_bytes, StateReg.toWord_ofBuffer h]

/-- Settles O34: both commands start a burst of the same bits, split at 32. -/
theorem theTwoFormsAgreeOnEightBytes : Obligations.TheTwoFormsAgreeOnEightBytes := by
  intro s r hbits hsize hdata
  have hbuf := exec_sendbuf_of_le (cnt := 8) (by decide) hsize r
  rw [show (8 : Word16).toNat = 8 from rfl, byteBits_read_eight hdata] at hbuf
  exact ⟨_, hbuf, exec_sendpkd_64 hbits r⟩

end Sys2Proof.Machine
end

section
/-! SUPPORT. The grammar in literal durations and the serializer's transitions phase by phase; the obligations
about them (R94 to R104). -/

namespace Sys2Proof.Machine

/-! ### The grammar -/

theorem bitEvents_footer :
    bitEvents footer = [.mark 620, .space 540, .mark 620, .space 1600, .mark 620, .space 540] := by decide

/-- One more repetition is appended at the end (R95). -/
theorem burst_succ (l : List Bool) (k r : Nat) : burst l k (r + 1) = burst l k r ++ repetition l k := by
  simp [burst, repetitions, List.replicate_succ']

/-- Settles O36: the durations are those of R7, and a burst grows by one repetition. -/
theorem theGrammarIsAsWritten : Obligations.TheGrammarIsAsWritten := by
  refine fun l k r => ⟨fun _ => rfl, ?_, ?_, burst_succ l k r⟩
  · rw [← bitEvents_footer]
    rfl
  · rw [burst, repetitions_succ]
    exact congrArg _ (List.append_nil _)

/-- R100: header, footer, gap and trailer are 12 events, and each bit is two. -/
theorem repetition_length {l : List Bool} {k : Nat} (h : k ≤ l.length) :
    (repetition l k).length = 2 * l.length + 12 := by
  have hsplit : (l.take k).length + (l.drop k).length = l.length := by simp [h]
  simp only [repetition, List.length_append, bitEvents_length, footer_eq, headerEvents, gapEvents, List.length_cons,
    List.length_nil]
  omega

theorem repetitions_length (l : List Bool) (k n : Nat) :
    (repetitions l k n).length = n * (repetition l k).length := by
  simp [repetitions]

/-- Settles O40: the carrier and `r + 1` repetitions. -/
theorem eventCounts : Obligations.EventCounts := by
  intro l k r h
  refine ⟨repetition_length h, ?_⟩
  rw [burst, List.length_cons, repetitions_length, repetition_length h, Nat.add_comm]

/-! ### The transition of each phase (R103) -/

namespace State

section
variable (s : State)

theorem advance_of_idle (h : s.st = .idle) : s.advance = s := by simp only [advance, h]
theorem advance_of_car (h : s.st = .car) : s.advance = s.enter .hm := by simp only [advance, h]
theorem advance_of_hm (h : s.st = .hm) : s.advance = s.enter .hs := by simp only [advance, h]

theorem advance_of_hs (h : s.st = .hs) : s.advance = (s.setJ 0).enter (if 0 < s.split then .d1m else .fm) := by
  simp only [advance, h]
  split_ifs <;> rfl

theorem advance_of_d1m (h : s.st = .d1m) : s.advance = s.enter .d1s := by simp only [advance, h]

theorem advance_of_d1s (h : s.st = .d1s) :
    s.advance = if s.j + 1 < s.split then (s.setJ (s.j + 1)).enter .d1m else (s.setJ 0).enter .fm := by
  simp only [advance, h]

theorem advance_of_fm (h : s.st = .fm) : s.advance = s.enter .fs := by simp only [advance, h]

theorem advance_of_fs (h : s.st = .fs) :
    s.advance = if s.j + 1 < 3 then (s.setJ (s.j + 1)).enter .fm else s.enter .gm := by
  simp only [advance, h]
  rfl

theorem advance_of_gm (h : s.st = .gm) : s.advance = s.enter .gs := by simp only [advance, h]

theorem advance_of_gs (h : s.st = .gs) :
    s.advance = (s.setJ s.split).enter (if s.split < s.bits.length then .d2m else .tm) := by
  simp only [advance, h]
  split_ifs <;> rfl

theorem advance_of_d2m (h : s.st = .d2m) : s.advance = s.enter .d2s := by simp only [advance, h]

theorem advance_of_d2s (h : s.st = .d2s) :
    s.advance = if s.j + 1 < s.bits.length then (s.setJ (s.j + 1)).enter .d2m else s.enter .tm := by
  simp only [advance, h]

theorem advance_of_tm (h : s.st = .tm) : s.advance = s.enter .ts := by simp only [advance, h]

theorem advance_of_ts (h : s.st = .ts) :
    s.advance = if s.rep < s.rmax then s.nextRep.enter .hm else s.finishBurst := by
  simp only [advance, h]

end

end State

theorem bitAt_of_getElem? {l : List Bool} {j : Nat} {b : Bool} (h : l[j]? = some b) : bitAt l j = b := by
  simp [bitAt, h]

/-- The footer's only 1 is its middle bit (R97). -/
theorem bitSpace_footer {j : Nat} (h : j < 3) : bitSpace (bitAt footer j) = if j = 1 then 1600 else 540 := by
  interval_cases j <;> rfl

/-- Settles O37: each clause is the transition of its phase, with the event of the phase it enters. -/
theorem serializerTransitions : Obligations.SerializerTransitions := by
  rintro s _ hb ht rfl
  have moves {t : State} (h : s.popTurn.advance = t) : step s = .next t := h ▸ step_of_busy hb ht
  refine ⟨fun hst => moves (s.popTurn.advance_of_car hst), fun hst => moves (s.popTurn.advance_of_hm hst),
    fun hst => moves ((s.popTurn.advance_of_hs hst).trans ?hs),
    fun b hst hbit => moves ((s.popTurn.advance_of_d1m hst).trans ?d1m),
    fun hst hj => moves ((s.popTurn.advance_of_d1s hst).trans (if_pos hj)),
    fun hst hj => moves ((s.popTurn.advance_of_d1s hst).trans (if_neg (Nat.not_lt.2 hj))),
    fun hst hj => moves ((s.popTurn.advance_of_fm hst).trans ?fm),
    fun hst hj => moves ((s.popTurn.advance_of_fs hst).trans (if_pos hj)),
    fun hst hj => moves ((s.popTurn.advance_of_fs hst).trans (if_neg (Nat.not_lt.2 hj))),
    fun hst => moves (s.popTurn.advance_of_gm hst),
    fun hst => moves ((s.popTurn.advance_of_gs hst).trans ?gs),
    fun b hst hbit => moves ((s.popTurn.advance_of_d2m hst).trans ?d2m),
    fun hst hj => moves ((s.popTurn.advance_of_d2s hst).trans (if_pos hj)),
    fun hst hj => moves ((s.popTurn.advance_of_d2s hst).trans (if_neg (Nat.not_lt.2 hj))),
    fun hst => moves (s.popTurn.advance_of_tm hst),
    fun hst hrep => moves ((s.popTurn.advance_of_ts hst).trans (if_pos hrep)),
    fun hst hrep => moves ((s.popTurn.advance_of_ts hst).trans (if_neg (Nat.not_lt.2 hrep)))⟩
  case hs =>
    rw [State.popTurn_split]
    split_ifs <;> rfl
  case gs =>
    rw [State.popTurn_split, State.popTurn_bits]
    split_ifs <;> rfl
  case d1m | d2m =>
    rw [← bitAt_of_getElem? hbit]
    rfl
  case fm =>
    rw [← bitSpace_footer hj]
    rfl

/-! ### What a step issues -/

/-- A command issues nothing, or it is a transmit command that issues the carrier (R85). -/
theorem exec_trace {i : Instr} {s t : State} (h : exec i s = .next t) :
    t.trace = s.trace ∨ t.trace = s.trace ++ [.carrier 38] := by
  cases hi : isTransmit i with
  | false =>
    obtain ⟨r, v, e⟩ := exec_register i s hi
    obtain rfl := Host.Outcome.next.inj (e.symm.trans h)
    exact .inl rfl
  | true =>
    obtain rfl | ⟨c, l, k, r, rfl, rfl | ⟨rfl, -⟩, -⟩ := exec_transmit hi h
    · exact .inl rfl
    · exact .inr rfl
    · exact .inr rfl

/-- Every phase but `IDLE` issues one event. -/
theorem phaseEvent_eq_singleton (s : State) {p : Phase} (hp : p ≠ .idle) : ∃ e, phaseEvent s p = [e] := by
  cases p with
  | idle => exact absurd rfl hp
  | _ => exact ⟨_, rfl⟩

/-- A transition issues one event of the fixed set or none. -/
theorem advance_trace (s : State) :
    (∃ e, s.advance.trace = s.trace ++ [e] ∧ e.legal) ∨ s.advance.trace = s.trace := by
  obtain ⟨p, n, r, -, hp, htrace, -⟩ | ⟨ha, -⟩ | ⟨ha, -⟩ := advance_cases s
  · obtain ⟨e, he⟩ := phaseEvent_eq_singleton { s with j := n, rep := r } hp
    exact .inl ⟨e, he ▸ htrace, phaseEvent_legal _ p e (he ▸ List.mem_singleton_self e)⟩
  · exact .inr (by rw [ha])
  · exact .inr (by rw [ha])

/-- The fixed set in literal durations (R98, R99). -/
theorem Event.legal_cases {e : Event} (h : e.legal) :
    e = .carrier 38 ∨ e = .mark 9000 ∨ e = .mark 620 ∨ e = .space 4000 ∨ e = .space 1600 ∨ e = .space 540 ∨
      e = .space 19000 := by
  cases e with
  | carrier k =>
    exact .inl (congrArg _ h)
  | mark d => rcases h with rfl | rfl <;> simp
  | space d => rcases h with rfl | rfl | rfl | rfl <;> simp

/-- Settles O42: a step that issues is the acceptance of a transmit command or a transition. -/
theorem atMostOneLegalEventPerStep : Obligations.AtMostOneLegalEventPerStep := by
  intro s t h
  obtain ⟨d, -, rfl⟩ | ⟨w, -, rfl⟩ | ⟨i, b, -, -, rfl⟩ | ⟨-, rfl⟩ | ⟨ht, -, rfl⟩ | ⟨-, -, rfl | rfl⟩ |
    ⟨i, ⟨-, ht, -⟩, he⟩ := step_cases h
  · exact .inl rfl
  · exact .inl rfl
  · exact .inl rfl
  · exact .inl rfl
  · obtain ⟨e, htrace, he⟩ | htrace := advance_trace s.popTurn
    · exact .inr ⟨ht, e, htrace, Event.legal_cases he⟩
    · exact .inl htrace
  · exact .inl rfl
  · exact .inl rfl
  · exact (exec_trace he).imp id fun htrace => ⟨ht, _, htrace, .inl rfl⟩

end Sys2Proof.Machine
end

section
/-! SUPPORT. A burst from its acceptance to its end: what is left to issue as a function of the state, which every transition
shortens by the event it issues; the obligations about whole bursts (R95, R100, R103 to R107, R136). -/

namespace Sys2Proof.Machine

/-! ### What is left of a burst -/

/-- The bits of a run from index `j` on start with bit `j`. -/
theorem bitEvents_drop {l : List Bool} {j : Nat} (h : j < l.length) :
    bitEvents (l.drop j) = .mark 620 :: .space (bitSpace (bitAt l j)) :: bitEvents (l.drop (j + 1)) := by
  rw [List.drop_eq_getElem_cons h, bitEvents_cons, bitAt_of_lt h]

/-- The bits of a run from its end on are none. -/
theorem bitEvents_drop_of_le {l : List Bool} {j : Nat} (h : l.length ≤ j) : bitEvents (l.drop j) = [] := by
  rw [List.drop_of_length_le h, bitEvents_nil]

theorem bitAt_take {l : List Bool} {j k : Nat} (h : j < k) : bitAt (l.take k) j = bitAt l j := by
  simp [bitAt, List.getElem?_take_of_lt h]

namespace State

/-- What a burst has left to issue after the second half of the current repetition (R95, R96). -/
def afterSecondHalf (s : State) : List Event :=
  gapEvents ++ repetitions s.bits s.split (s.rmax.toNat - s.rep.toNat)

/-- What it has left after the footer. -/
def afterFooter (s : State) : List Event := gapEvents ++ bitEvents (s.bits.drop s.split) ++ s.afterSecondHalf

/-- What it has left after the first half. -/
def afterFirstHalf (s : State) : List Event := bitEvents footer ++ s.afterFooter

/-- What it has left in a phase, whose own event is issued (R96, R103). -/
def remainingIn (s : State) : Phase → List Event
  | .idle => []
  | .car => repetitions s.bits s.split (s.rmax.toNat - s.rep.toNat + 1)
  | .hm => .space 4000 :: (bitEvents (s.bits.take s.split) ++ s.afterFirstHalf)
  | .hs => bitEvents (s.bits.take s.split) ++ s.afterFirstHalf
  | .d1m => .space (bitSpace (bitAt s.bits s.j)) ::
      (bitEvents ((s.bits.take s.split).drop (s.j + 1)) ++ s.afterFirstHalf)
  | .d1s => bitEvents ((s.bits.take s.split).drop (s.j + 1)) ++ s.afterFirstHalf
  | .fm => .space (bitSpace (bitAt footer s.j)) :: (bitEvents (footer.drop (s.j + 1)) ++ s.afterFooter)
  | .fs => bitEvents (footer.drop (s.j + 1)) ++ s.afterFooter
  | .gm => .space 19000 :: (bitEvents (s.bits.drop s.split) ++ s.afterSecondHalf)
  | .gs => bitEvents (s.bits.drop s.split) ++ s.afterSecondHalf
  | .d2m => .space (bitSpace (bitAt s.bits s.j)) :: (bitEvents (s.bits.drop (s.j + 1)) ++ s.afterSecondHalf)
  | .d2s => bitEvents (s.bits.drop (s.j + 1)) ++ s.afterSecondHalf
  | .tm => .space 19000 :: repetitions s.bits s.split (s.rmax.toNat - s.rep.toNat)
  | .ts => repetitions s.bits s.split (s.rmax.toNat - s.rep.toNat)

/-- The events of the current burst that are not issued yet. -/
def remaining (s : State) : List Event := s.remainingIn s.st

/-- The first half is entered at its first bit, or is empty. -/
theorem enter_firstHalf {s : State} {j : Nat} (hs : s.split ≤ s.bits.length) (hj : j < s.split) :
    phaseEvent (s.setJ j) .d1m ++ (s.setJ j).remainingIn .d1m =
      bitEvents ((s.bits.take s.split).drop j) ++ s.afterFirstHalf := by
  have hlt : j < (s.bits.take s.split).length := by rw [List.length_take]; omega
  rw [bitEvents_drop hlt, bitAt_take hj]
  rfl

theorem enter_footer {s : State} {j : Nat} (hj : j < 3) :
    phaseEvent (s.setJ j) .fm ++ (s.setJ j).remainingIn .fm = bitEvents (footer.drop j) ++ s.afterFooter := by
  rw [bitEvents_drop (show j < footer.length from hj)]
  rfl

theorem enter_secondHalf {s : State} {j : Nat} (hj : j < s.bits.length) :
    phaseEvent (s.setJ j) .d2m ++ (s.setJ j).remainingIn .d2m = bitEvents (s.bits.drop j) ++ s.afterSecondHalf := by
  rw [bitEvents_drop hj]
  rfl

/-- A repetition is entered at its header. -/
theorem enter_repetition (s : State) :
    phaseEvent s .hm ++ s.remainingIn .hm = repetitions s.bits s.split (s.rmax.toNat - s.rep.toNat + 1) := by
  rw [repetitions_succ]
  simp [phaseEvent, remainingIn, repetition, headerEvents, gapEvents, afterFirstHalf, afterFooter, afterSecondHalf]

/-- A transition issues the first of the remaining events: what is issued and what remains are together the same. -/
theorem trace_remaining_advance {s : State} (hs : s.split ≤ s.bits.length) :
    s.advance.trace ++ s.advance.remaining = s.trace ++ s.remaining := by
  have enters {c : State} {p q : Phase} (hst : s.st = q) (ha : s.advance = c.enter p) (hc : c.trace = s.trace)
      (hr : phaseEvent c p ++ c.remainingIn p = s.remainingIn q) :
      s.advance.trace ++ s.advance.remaining = s.trace ++ s.remaining := by
    have hrem : s.remaining = s.remainingIn q := by rw [remaining, hst]
    have hsame : (c.enter p).remaining = c.remainingIn p := by cases p <;> rfl
    rw [ha, enter_trace, hc, List.append_assoc, hsame, hrem, hr]
  cases hst : s.st with
  | idle => rw [s.advance_of_idle hst]
  | car => exact enters hst (s.advance_of_car hst) rfl s.enter_repetition
  | hm => exact enters hst (s.advance_of_hm hst) rfl rfl
  | d1m => exact enters hst (s.advance_of_d1m hst) rfl rfl
  | fm => exact enters hst (s.advance_of_fm hst) rfl rfl
  | gm => exact enters hst (s.advance_of_gm hst) rfl rfl
  | d2m => exact enters hst (s.advance_of_d2m hst) rfl rfl
  | tm => exact enters hst (s.advance_of_tm hst) rfl rfl
  | hs =>
    have ha := s.advance_of_hs hst
    split_ifs at ha with hsplit
    · exact enters hst ha rfl (enter_firstHalf hs hsplit)
    · have hnone : bitEvents (s.bits.take s.split) = [] := by rw [Nat.eq_zero_of_not_pos hsplit]; rfl
      refine enters hst ha rfl ((enter_footer (by decide)).trans ?_)
      rw [remainingIn, hnone]
      rfl
  | d1s =>
    have ha := s.advance_of_d1s hst
    split_ifs at ha with hj
    · exact enters hst ha rfl (enter_firstHalf hs hj)
    · have hnone : bitEvents ((s.bits.take s.split).drop (s.j + 1)) = [] :=
        bitEvents_drop_of_le ((List.length_take_le _ _).trans (Nat.not_lt.1 hj))
      refine enters hst ha rfl ((enter_footer (by decide)).trans ?_)
      rw [remainingIn, hnone]
      rfl
  | fs =>
    have ha := s.advance_of_fs hst
    split_ifs at ha with hj
    · exact enters hst ha rfl (enter_footer hj)
    · refine enters hst ha rfl ?_
      rw [remainingIn, bitEvents_drop_of_le (Nat.not_lt.1 hj)]
      rfl
  | gs =>
    have ha := s.advance_of_gs hst
    split_ifs at ha with hsecond
    · exact enters hst ha rfl (enter_secondHalf hsecond)
    · refine enters hst ha rfl ?_
      rw [remainingIn, bitEvents_drop_of_le (Nat.not_lt.1 hsecond)]
      rfl
  | d2s =>
    have ha := s.advance_of_d2s hst
    split_ifs at ha with hj
    · exact enters hst ha rfl (enter_secondHalf hj)
    · refine enters hst ha rfl ?_
      rw [remainingIn, bitEvents_drop_of_le (Nat.not_lt.1 hj)]
      rfl
  | ts =>
    have ha := s.advance_of_ts hst
    split_ifs at ha with hrep
    · refine enters hst ha rfl (s.nextRep.enter_repetition.trans ?_)
      have hcount : s.rmax.toNat - (s.rep + 1).toNat + 1 = s.rmax.toNat - s.rep.toNat := by bv_omega
      rw [nextRep_rep, nextRep_rmax, hcount]
      rfl
    · have hnone : s.remaining = [] := by
        rw [remaining, hst, remainingIn, Nat.sub_eq_zero_of_le (Nat.not_lt.1 hrep)]
        rfl
      rw [ha, hnone]
      rfl

/-! ### A burst runs to its end -/

/-- The core makes every move, and a burst runs. -/
structure Bursting (s : State) : Prop where
  busy : s.busy = true
  phase : s.st ≠ .idle
  turns : s.turns = []
  split : s.split ≤ s.bits.length

/-- The end of the burst: what remained is issued; `rep` and `j` keep their last values (R32, R105). -/
def burstDone (s : State) (r : Word16) (n : Nat) : State :=
  { s with st := .idle, busy := false, rep := r, j := n, trace := s.trace ++ s.remaining }

theorem Bursting.step_eq {s : State} (h : s.Bursting) : step s = .next s.advance := by
  have hpop : s.popTurn = s := by rw [popTurn, h.turns, List.tail_nil, ← h.turns]
  rw [step_of_busy h.busy (by rw [nextTurn, h.turns]; rfl), hpop]

/-- During a burst a transition issues the first remaining event and the burst goes on, or none remains and it ends. -/
theorem Bursting.advance_cases {s : State} (h : s.Bursting) :
    (s.advance.Bursting ∧ ∃ e, s.remaining = e :: s.advance.remaining) ∨
    (s.remaining = [] ∧ s.advance = s.finishBurst) := by
  have hsum := trace_remaining_advance h.split
  obtain ⟨p, n, r, ha, hp, htrace, -⟩ | ⟨ha, -⟩ | ⟨-, hidle⟩ := Machine.advance_cases s
  · obtain ⟨e, he⟩ := phaseEvent_eq_singleton { s with j := n, rep := r } hp
    rw [htrace, he, List.append_assoc] at hsum
    have hbursting : s.advance.Bursting := by
      rw [ha]
      exact ⟨h.busy, hp, h.turns, h.split⟩
    exact .inl ⟨hbursting, e, (List.append_cancel_left hsum).symm⟩
  · rw [ha] at hsum
    exact .inr ⟨(List.append_cancel_left hsum).symm, ha⟩
  · exact absurd hidle h.phase

/-- A burst ends one step after the last of its remaining events is issued, and not before (R105). -/
theorem Bursting.run {s : State} (h : s.Bursting) :
    (∃ r n, runsTo (s.remaining.length + 1) s (s.burstDone r n)) ∧
    ∀ m u, m < s.remaining.length + 1 → runsTo m s u → u.busy = true := by
  induction hlen : s.remaining.length generalizing s with
  | zero =>
    obtain ⟨-, e, hrem⟩ | ⟨hrem, ha⟩ := h.advance_cases
    · simp [hrem] at hlen
    · refine ⟨⟨s.rep, s.j, runsTo_one.2 (h.step_eq.trans ?_)⟩, fun m u hm hu => ?_⟩
      · rw [ha, burstDone, hrem, List.append_nil]
        rfl
      · obtain rfl : m = 0 := by omega
        exact runsTo_zero.1 hu ▸ h.busy
  | succ k ih =>
    obtain ⟨hnext, e, hrem⟩ | ⟨hrem, -⟩ := h.advance_cases
    · obtain ⟨⟨r, n, hrun⟩, hbusy⟩ := ih hnext (by simpa [hrem] using hlen)
      have hdone : s.advance.burstDone r n = s.burstDone r n := by
        simp [burstDone, trace_remaining_advance h.split]
      refine ⟨⟨r, n, runsTo_succ.2 ⟨_, h.step_eq, hdone ▸ hrun⟩⟩, ?_⟩
      rintro (_ | m) u hm hu
      · exact runsTo_zero.1 hu ▸ h.busy
      · obtain ⟨v, hv, hu⟩ := runsTo_succ.1 hu
        obtain rfl := Host.Outcome.next.inj (h.step_eq.symm.trans hv)
        exact hbusy m u (by omega) hu
    · simp [hrem] at hlen

end State

/-- Settles O38: at `CAR` with `rep = 0`, what remains is the burst after its carrier. -/
theorem serializerIssuesExactlyTheBurst : Obligations.SerializerIssuesExactlyTheBurst := by
  intro s hb hst hrep ht hsplit
  have hbursting : s.Bursting := ⟨hb, by rw [hst]; nofun, ht, hsplit⟩
  have hrem : currentBurst s = .carrier 38 :: s.remaining := by
    rw [State.remaining, hst, State.remainingIn, hrep]
    rfl
  obtain ⟨⟨r, n, hrun⟩, hbusy⟩ := hbursting.run
  rw [hrem]
  exact ⟨_, hrun, rfl, rfl, rfl, rfl, rfl, rfl, rfl, rfl, hbusy⟩

/-! ### The burst of SEND -/

/-- The state after the acceptance of `SEND r` (R86). -/
def sendAccepted (s : State) (r : Word16) : State :=
  s.popTurn.takeCommand.refreshChecksum.startBurst (byteBits s.refreshChecksum.sr.bytes) 32 r

theorem step_of_accepts_send {s : State} {r : Word16} (h : s.accepts (.send r)) :
    step s = .next (sendAccepted s r) := step_of_accepts h

theorem remaining_sendAccepted (s : State) (r : Word16) :
    (sendAccepted s r).remaining = repetitions (byteBits s.refreshChecksum.sr.bytes) 32 (r.toNat + 1) := rfl

/-- SEND's burst has 64 bits, so 140 events a repetition (R100). -/
theorem remaining_sendAccepted_length (s : State) (r : Word16) :
    (sendAccepted s r).remaining.length = (r.toNat + 1) * 140 := by
  have hbits : (byteBits s.refreshChecksum.sr.bytes).length = 64 := byteBits_length _
  rw [remaining_sendAccepted, repetitions_length, repetition_length (by rw [hbits]; decide), hbits]

theorem bursting_sendAccepted {s : State} (ht : s.turns = []) (r : Word16) : (sendAccepted s r).Bursting where
  busy := rfl
  phase := nofun
  turns := by
    show s.turns.tail = []
    rw [ht, List.tail_nil]
  split := by
    have hbits : (byteBits s.refreshChecksum.sr.bytes).length = 64 := byteBits_length _
    show 32 ≤ (byteBits s.refreshChecksum.sr.bytes).length
    omega

/-- From its acceptance, SEND's burst ends after the carrier's step and one step for each of the other events. -/
theorem run_sendAccepted {s : State} (ht : s.turns = []) (r : Word16) :
    (∃ q n, runsTo (1 + (r.toNat + 1) * 140) (sendAccepted s r) ((sendAccepted s r).burstDone q n)) ∧
    ∀ m u, m < 1 + (r.toNat + 1) * 140 → runsTo m (sendAccepted s r) u → u.busy = true := by
  rw [Nat.add_comm, ← remaining_sendAccepted_length s r]
  exact (bursting_sendAccepted ht r).run

/-- The trace after SEND's burst (R95). -/
theorem trace_burstDone_sendAccepted (s : State) (r q : Word16) (n : Nat) :
    ((sendAccepted s r).burstDone q n).trace =
      s.trace ++ burst (byteBits s.refreshChecksum.sr.bytes) 32 r.toNat :=
  List.append_assoc _ _ _

/-- Settles O39: the acceptance, then the burst to its end. -/
theorem sendIssuesItsBurstAndCompletes : Obligations.SendIssuesItsBurstAndCompletes := by
  intro s w ws r hb ht hc hd
  have haccepts : s.accepts (.send r) := ⟨hb, by rw [nextTurn, ht]; rfl, w, ws, hc, hd⟩
  obtain ⟨⟨q, n, hrun⟩, -⟩ := run_sendAccepted ht r
  refine ⟨_, _, rfl, runsTo_add (runsTo_one.2 (step_of_accepts_send haccepts)) hrun,
    trace_burstDone_sendAccepted s r q n, rfl, rfl, rfl, ?_⟩
  show s.cmds.tail = ws
  rw [hc, List.tail_cons]

/-- Settles O56: the run has not ended while the word is on the port, nor while `BUSY = 1`. -/
theorem aSendRunEndsWithItsBurst : Obligations.ASendRunEndsWithItsBurst := by
  intro s w r hb ht hc hd
  have haccepts : s.accepts (.send r) := ⟨hb, by rw [nextTurn, ht]; rfl, w, [], hc, hd⟩
  have hgoing : ¬s.ended := fun hended => by simpa [State.pending, hc] using hended.1
  obtain ⟨⟨q, n, hrun⟩, hbusy⟩ := run_sendAccepted ht r
  have hended : ((sendAccepted s r).burstDone q n).ended := by
    refine ⟨?_, rfl⟩
    show s.cmds.tail ++ s.turns.tail.filterMap Turn.presented = []
    rw [hc, ht]
    rfl
  have hends : runEnds (1 + (r.toNat + 1) * 140) (sendAccepted s r) ((sendAccepted s r).burstDone q n) :=
    ⟨hrun, hended, fun m u hm hu hend => absurd ((hbusy m u hm hu).symm.trans hend.2) nofun⟩
  have hwhole := runEnds_succ hgoing (step_of_accepts_send haccepts) hends
  rw [Nat.add_comm] at hwhole
  exact ⟨_, _, rfl, hwhole,
    congrArg (fun es => (s.refreshChecksum.sr, s.result, es)) (trace_burstDone_sendAccepted s r q n)⟩

end Sys2Proof.Machine
end

section
/-! SUPPORT. What a command and what a step answer, the stops included; the obligation about the stops (R109, R132, R40). -/

namespace Sys2Proof.Machine

/-! ### The stops -/

/-- SENDBUF with a byte to read that does not exist is stuck (R132, D25). -/
theorem exec_sendbuf_of_gt {cnt : Word16} {s : State} (h : 8 ≤ cnt.toNat) (hsize : s.params.hbSize.val < cnt.toNat)
    (r : Word16) : exec (.sendbuf cnt r) s = .fault .sendbufBeyondHostBuffer :=
  (execSendbuf_eq cnt r s).trans ((if_neg (Nat.not_lt.2 h)).trans (if_neg (Nat.not_le.2 hsize)))

/-- A command goes on, but for a SENDBUF that reads a byte beyond the host buffer (R109). -/
theorem exec_outcome (i : Instr) (s : State) :
    (∃ t, exec i s = .next t) ∨
    (∃ cnt r, i = .sendbuf cnt r ∧ 8 ≤ cnt.toNat ∧ s.params.hbSize.val < cnt.toNat ∧
      exec i s = .fault .sendbufBeyondHostBuffer) := by
  cases hi : isTransmit i with
  | false =>
    obtain ⟨r, v, e⟩ := exec_register i s hi
    exact .inl ⟨_, e⟩
  | true =>
    cases i with
    | send r => exact .inl ⟨_, exec_send r s⟩
    | sendpkd cnt r =>
      obtain h | h := eq_or_ne cnt.toNat s.params.packedBits.val
      · exact .inl ⟨_, exec_sendpkd_of_eq h r⟩
      · exact .inl ⟨_, exec_sendpkd_of_ne h r⟩
    | sendbuf cnt r =>
      obtain h | h := Nat.lt_or_ge cnt.toNat 8
      · exact .inl ⟨_, exec_sendbuf_of_lt h r s⟩
      obtain hsize | hsize := Nat.lt_or_ge s.params.hbSize.val cnt.toNat
      · exact .inr ⟨cnt, r, rfl, h, hsize, exec_sendbuf_of_gt h hsize r⟩
      · exact .inl ⟨_, exec_sendbuf_of_le h hsize r⟩
    | _ => cases hi

/-- A host write to a byte that does not exist (R40, log 12). -/
theorem hostWrite_of_ge {s : State} {i : Word16} (h : s.params.hbSize.val ≤ i.toNat) (b : Byte) :
    hostWrite s i b = .fault .hostWriteBeyondHostBuffer := if_neg (Nat.not_lt.2 h)

/-- The idle step: the block is ready and no word is on the port (R122; log 17). -/
theorem step_of_idle {s : State} (hb : s.busy = false) (ht : nextTurn s = .core) (hc : s.cmds = []) :
    step s = .next s.popTurn := by
  simp [step_of_nextTurn ht, move, coreMove, ready, hb, hc]

/-- All that a step can answer: it goes on, or it is one of the three stops. -/
theorem step_outcome (s : State) :
    (∃ t, step s = .next t) ∨
    (∃ cnt r, s.accepts (.sendbuf cnt r) ∧ 8 ≤ cnt.toNat ∧ s.params.hbSize.val < cnt.toNat ∧
      step s = .fault .sendbufBeyondHostBuffer) ∨
    (∃ i b, nextTurn s = .writeBuffer i b ∧ s.params.hbSize.val ≤ i.toNat ∧
      step s = .fault .hostWriteBeyondHostBuffer) ∨
    (∃ w ws, s.params.reserved = .refuse ∧ s.busy = false ∧ nextTurn s = .core ∧ s.cmds = w :: ws ∧
      ¬wellFormedWord w ∧ step s = .refused (.reservedWord w)) := by
  cases ht : nextTurn s with
  | rst | driveData | present => exact .inl ⟨_, step_of_nextTurn ht⟩
  | writeBuffer i b =>
    obtain hi | hi := Nat.lt_or_ge i.toNat s.params.hbSize.val
    · exact .inl ⟨_, (step_of_nextTurn ht).trans (hostWrite_of_lt (s := s.popTurn) hi b)⟩
    · exact .inr (.inr (.inl ⟨i, b, rfl, hi, (step_of_nextTurn ht).trans (hostWrite_of_ge (s := s.popTurn) hi b)⟩))
  | core =>
    cases hb : s.busy with
    | true => exact .inl ⟨_, step_of_busy hb ht⟩
    | false =>
      cases hc : s.cmds with
      | nil => exact .inl ⟨_, step_of_idle hb ht hc⟩
      | cons w ws =>
        by_cases hw : wellFormedWord w
        · obtain ⟨i, hd, -⟩ := decodeWord_total hw
          have ha : s.accepts i := ⟨hb, ht, w, ws, hc, hd⟩
          rw [step_of_accepts ha]
          obtain hnext | ⟨cnt, r, rfl, h, hsize, hfault⟩ := exec_outcome i s.popTurn.takeCommand
          · exact .inl hnext
          · exact .inr (.inl ⟨cnt, r, ha, h, hsize, hfault⟩)
        · obtain ⟨hignore, hrefuse⟩ := reservedWordsAreIgnored s w ws hb ht hc hw
          cases hp : s.params.reserved with
          | ignore => exact .inl ⟨_, hignore hp⟩
          | refuse => exact .inr (.inr (.inr ⟨w, ws, rfl, rfl, rfl, rfl, hw, hrefuse hp⟩))

/-- Settles O11: of what a step can answer, a fault is one of the two beyond the host buffer, and a refusal the reserved
word's. -/
theorem theOnlyStops : Obligations.TheOnlyStops := by
  intro s
  obtain ⟨t, e⟩ | ⟨cnt, r, ha, h, hsize, e⟩ | ⟨i, b, ht, hi, e⟩ | ⟨w, ws, hp, hb, ht, hc, hw, e⟩ := step_outcome s <;>
    rw [e]
  · exact ⟨nofun, nofun⟩
  · refine ⟨fun f hf => ?_, nofun⟩
    cases hf
    exact .inl ⟨rfl, cnt, r, ha, h, hsize⟩
  · refine ⟨fun f hf => ?_, nofun⟩
    cases hf
    exact .inr ⟨rfl, i, b, ht, hi⟩
  · refine ⟨nofun, fun q hq => ?_⟩
    cases hq
    exact ⟨hp, hb, ht, w, ws, hc, rfl, hw⟩

end Sys2Proof.Machine
end

section
/-! SUPPORT. Nominal durations, the checksum of a changed register, a block at rest; the obligations about reset and about
what a program must not assume (R123 to R136). -/

namespace Sys2Proof.Machine

/-! ### The checksum of a changed register -/

/-- Of byte 1 the checksum tells every two low nibbles apart, in either variant: the other terms are the same. -/
theorem csum_b1_inj {v : ChecksumVariant} {r : StateReg} {b : Byte} (h : csum v (r.setTemp b) = csum v r) :
    b.toNat % 16 = r.b1.toNat % 16 := by
  have hsum := congrArg BitVec.toNat h
  have hmod : b.toNat % 16 ≡ r.b1.toNat % 16 [MOD 16] := by
    cases v
    · simp only [csumAsWritten_toNat, Nat.add_assoc] at hsum
      exact .add_right_cancel' _ (.add_left_cancel' _ (.add_left_cancel' _ hsum))
    · simp only [csumHighNibble_toNat, Nat.add_assoc] at hsum
      exact .add_right_cancel' _ (.add_left_cancel' _ (.add_left_cancel' _ hsum))
  rwa [Nat.ModEq, Nat.mod_mod, Nat.mod_mod] at hmod

/-- A writer of the low nibble of byte 0 that keeps the checksum's value wrote nothing new. -/
theorem eq_of_csum_b0 {v : ChecksumVariant} {r : StateReg} {b : Byte} (hhigh : b.toNat / 16 = r.b0.toNat / 16)
    (h : csum v { r with b0 := b } = csum v r) : { r with b0 := b } = r := by
  have hlow := csum_b0_inj h
  have hb : b = r.b0 := BitVec.eq_of_toNat_eq (by omega)
  rw [hb]

theorem setPower_eq_self_of_csum_eq {v : ChecksumVariant} {r : StateReg} {p : BitVec 1}
    (h : csum v (r.setPower p) = csum v r) : r.setPower p = r := by
  have hhigh : (r.setPower p).b0.toNat / 16 = r.b0.toNat / 16 := by
    rw [StateReg.setPower_b0]
    omega
  exact eq_of_csum_b0 hhigh h

theorem setMode_eq_self_of_csum_eq {v : ChecksumVariant} {r : StateReg} {m : BitVec 3}
    (h : csum v (r.setMode m) = csum v r) : r.setMode m = r := by
  have hhigh : (r.setMode m).b0.toNat / 16 = r.b0.toNat / 16 := by
    rw [StateReg.setMode_b0]
    omega
  exact eq_of_csum_b0 hhigh h

/-- Legal temperature codes fit in the low nibble, which the checksum reads (R20, R26). -/
theorem setTemp_eq_self_of_csum_eq {v : ChecksumVariant} {r : StateReg} {t : Byte} (hr : r.legal) (ht : t.toNat ≤ 14)
    (h : csum v (r.setTemp t) = csum v r) : r.setTemp t = r := by
  obtain ⟨-, -, hb, -⟩ := r.legal_iff.1 hr
  have hlow := csum_b1_inj h
  have heq : t = r.b1 := BitVec.eq_of_toNat_eq (by omega)
  rw [StateReg.setTemp, heq]

/-- A write that keeps CHECKSUM and moves the sum away from a fresh one leaves a stale one (R13). -/
theorem stale_of_csum_ne {v : ChecksumVariant} {q r : StateReg} (hc : q.checksum = r.checksum) (hr : ¬stale v r)
    (h : csum v q ≠ csum v r) : stale v q := by
  rw [stale, hc, not_not.1 hr]
  exact h.symm

theorem stale_congr {v : ChecksumVariant} {q r : StateReg} (hc : q.checksum = r.checksum) (h : csum v q = csum v r) :
    stale v q ↔ stale v r := by
  rw [stale, stale, hc, h]

/-- As written, the checksum is fresh right after it is written: the sum does not read CHECKSUM (R80). -/
theorem not_stale_setChecksum (r : StateReg) : ¬stale .asWritten (r.setChecksum (csum .asWritten r)) := by
  rw [not_not, StateReg.checksum_setChecksum]
  exact (StateReg.csumAsWritten_setChecksum r _).symm

/-- Settles O24: CKSUM, RAWRD and SEND write the sum; each of the three setters keeps CHECKSUM and keeps the sum only if it
changes nothing; FAN and VANE are no input of the sum. -/
theorem whenTheChecksumIsStale : Obligations.WhenTheChecksumIsStale := by
  intro s hv
  have hfresh : ¬stale .asWritten (s.sr.setChecksum (csum s.params.variant s.sr)) := by
    rw [hv]
    exact not_stale_setChecksum s.sr
  refine ⟨?_, ?_, ?_⟩
  · rintro i r (rfl | rfl | rfl) <;> exact ⟨_, rfl, hfresh⟩
  · rintro imm i (rfl | rfl | rfl) <;>
      refine ⟨_, rfl, fun hlegal hbefore hne => stale_of_csum_ne (r := s.sr) rfl hbefore fun hcsum => hne ?_⟩
    · exact setPower_eq_self_of_csum_eq hcsum
    · exact setMode_eq_self_of_csum_eq hcsum
    · have ht := tempValue_toNat imm
      exact setTemp_eq_self_of_csum_eq hlegal (by omega) hcsum
  · rintro imm i (rfl | rfl)
    · exact ⟨_, rfl, stale_congr rfl (csum_setFan _ _ _)⟩
    · exact ⟨_, rfl, stale_congr rfl (csum_setVane _ _ _)⟩

/-! ### Nominal durations -/

@[simp] theorem nominal_append (es fs : List Event) : nominal (es ++ fs) = nominal es + nominal fs := by simp [nominal]

/-- A bit takes 1160 µs, a 1 takes 1060 µs more (R94). -/
@[simp] theorem nominal_bitEvents (l : List Bool) :
    nominal (bitEvents l) = 1160 * l.length + 1060 * l.count true := by
  induction l with
  | nil => rfl
  | cons b l ih =>
    have hcons : nominal (bitEvents (b :: l)) = 620 + (bitSpace b + nominal (bitEvents l)) := rfl
    rw [hcons, ih, List.length_cons]
    cases b
    · rw [show bitSpace false = 540 from rfl, List.count_cons_of_ne (by decide)]
      omega
    · rw [show bitSpace true = 1600 from rfl, List.count_cons_self]
      omega

/-- The two runs of bits add up to those of the whole sequence, wherever it is split. -/
theorem nominal_repetition (l : List Bool) (k : Nat) :
    nominal (repetition l k) = 56780 + 1160 * l.length + 1060 * l.count true := by
  have hsplit : nominal (bitEvents (l.take k)) + nominal (bitEvents (l.drop k)) = nominal (bitEvents l) := by
    rw [← nominal_append, bitEvents, bitEvents, ← List.flatMap_append, List.take_append_drop, ← bitEvents]
  have hheader : nominal headerEvents = 13000 := rfl
  have hgap : nominal gapEvents = 19620 := rfl
  have hfooter : nominal (bitEvents footer) = 4540 := by decide
  rw [nominal_bitEvents l] at hsplit
  simp only [repetition, nominal_append, hheader, hgap, hfooter]
  omega

theorem nominal_repetitions (l : List Bool) (k n : Nat) :
    nominal (repetitions l k n) = n * nominal (repetition l k) := by
  induction n with
  | zero => simp [repetitions, nominal]
  | succ n ih => rw [repetitions_succ, nominal_append, ih, Nat.succ_mul, Nat.add_comm]

/-- Settles O41: the carrier takes no time, and every repetition the same. -/
theorem nominalDuration : Obligations.NominalDuration := by
  intro l k r _
  refine ⟨nominal_repetition l k, ?_⟩
  rw [← nominal_repetition l k, ← nominal_repetitions]
  exact Nat.zero_add _

/-! ### SENDBUF beyond the bytes that exist -/

/-- Settles O30: of the two cases from 8 on, one starts a burst and the other is stuck. -/
theorem sendbufBeyondTheBytesIsStuck : Obligations.SendbufBeyondTheBytesIsStuck := by
  intro s cnt r h
  refine ⟨fun hstuck => ?_, fun hsize => exec_sendbuf_of_gt h hsize r⟩
  by_contra hsize
  rw [exec_sendbuf_of_le h (Nat.not_lt.1 hsize) r] at hstuck
  cases hstuck

/-! ### A block at rest, a busy block and reset -/

namespace State

theorem ended.cmds_eq_nil {s : State} (h : s.ended) : s.cmds = [] := (List.append_eq_nil_iff.1 h.1).1

/-- Once every command has been accepted, none is accepted. -/
theorem ended.not_accepts {s : State} (h : s.ended) (i : Instr) : ¬s.accepts i := by
  rintro ⟨-, -, w, ws, hc, -⟩
  exact absurd (hc.symm.trans h.cmds_eq_nil) nofun

/-- Once every command has been accepted, a step leaves none to accept. -/
theorem ended.pending_step {s t : State} (h : s.ended) (hstep : step s = .next t) : t.pending = [] := by
  obtain hsame | ⟨-, -, w, ws, hc, -⟩ := commandsAreTakenInOrder s t hstep
  · exact hsame.trans h.1
  · exact absurd (hc.symm.trans h.cmds_eq_nil) nofun

end State

/-- Settles O10: without a command to take, the only moves but `rst` are the idle one and the host's. -/
theorem anEndedRunStays : Obligations.AnEndedRunStays := by
  intro s hs
  have hb : s.busy = false := hs.2
  have hc : s.cmds = [] := hs.cmds_eq_nil
  refine ⟨fun ht => step_of_idle hb ht hc, fun t h hrst => ?_⟩
  suffices hrest : t.busy = false ∧ t.observed = s.observed from ⟨⟨hs.pending_step h, hrest.1⟩, hrest.2⟩
  obtain ⟨d, -, rfl⟩ | ⟨w, -, rfl⟩ | ⟨i, b, -, -, rfl⟩ | ⟨ht, -⟩ | ⟨-, hbusy, -⟩ | ⟨-, -, rfl | rfl⟩ | ⟨i, hi, -⟩ :=
    step_cases h
  · exact ⟨hb, rfl⟩
  · exact ⟨hb, rfl⟩
  · exact ⟨hb, rfl⟩
  · exact absurd ht hrst
  · exact absurd (hb.symm.trans hbusy) nofun
  · exact ⟨hb, rfl⟩
  · exact ⟨hb, rfl⟩
  · exact absurd hi (hs.not_accepts i)

/-- With nothing scheduled and nothing on the port, a block that is not busy stays as it is (R122; log 17). -/
theorem runsTo_self_of_idle {s : State} (hb : s.busy = false) (ht : s.turns = []) (hc : s.cmds = []) (n : Nat) :
    runsTo n s s := by
  have hpop : s.popTurn = s := by rw [State.popTurn, ht, List.tail_nil, ← ht]
  have hidle : step s = .next s := (step_of_idle hb (by rw [nextTurn, ht]; rfl) hc).trans (by rw [hpop])
  induction n with
  | zero => exact runsTo_zero.2 rfl
  | succ n ih => exact runsTo_succ.2 ⟨s, hidle, ih⟩

/-- The step that `rst` makes (R123). -/
theorem step_of_rst {s : State} (ht : nextTurn s = .rst) : step s = .next s.popTurn.hardReset := step_of_nextTurn ht

/-- Settles O46: after `rst` the block is idle and stays so. -/
theorem rstAbandonsTheBurst : Obligations.RstAbandonsTheBurst := by
  intro s n ht hc
  have hrst : step s = .next s.popTurn.hardReset := step_of_rst (by rw [nextTurn, ht]; rfl)
  have hturns : s.popTurn.hardReset.turns = [] := by
    rw [State.hardReset_turns, State.popTurn_turns, ht, List.tail_cons]
  exact ⟨_, runsTo_succ.2 ⟨_, hrst, runsTo_self_of_idle rfl hturns hc n⟩, rfl, rfl⟩

/-- Settles O9: the step is the serializer's transition, which touches neither the port nor a register. -/
theorem commandsAreHeldWhileBusy : Obligations.CommandsAreHeldWhileBusy :=
  fun _ hb ht => ⟨_, step_of_busy hb ht, State.advance_cmds _, State.advance_sr _, State.advance_result _⟩

/-- Settles O45: the step is the hardware reset, field by field. -/
theorem rstResetsTheBlock : Obligations.RstResetsTheBlock :=
  fun _ ht => ⟨_, step_of_rst ht, rfl, rfl, rfl, rfl, rfl, rfl, rfl, rfl⟩

end Sys2Proof.Machine
end
